-- ==== Sys2Proof/Word.lean ====
section
/-! DEFINITION. The byte and the byte string (spec/00_scope.md R10, R11). -/

namespace Sys2Proof

/-- R10: "a *byte* is an unsigned integer in 0..255 (`u8`)". Addresses are bytes too (R9). -/
abbrev Byte := BitVec 8

/-- A byte string: a frame, what `read()` returned, the data of a window (R11, R34: element 0 is first on the wire). -/
abbrev Bytes := List Byte

end Sys2Proof
end

