-- ==== Sys2Proof/Config.lean ====
section
/-! DEFINITION. The implementation parameters of spec/00_scope.md R7 to R9: the constants the source fixes, and the
tables it leaves open, with the well-formedness a model may assume of them (44_address_map R127, 30_encoding R63). -/

namespace Sys2Proof.Config

/-! ## The constants of R7 -/

/-- `FRAME_LEN` (R7, R51). -/
def frameLen : Nat := 17
/-- `HEADER` (R7, R52). -/
def header : Byte := 0x08
/-- `CK_SEED` (R7, R76). -/
def ckSeed : Int := 0x55
/-- `NPARAM` (R7). -/
def nParam : Nat := 14
/-- `MAX_XFER` (R7, R39). -/
def maxXfer : Nat := 10
/-- The entries of the mirror, `MIRROR_DEPTH` (R9, R14); also the first number that is no address. -/
def mirrorDepth : Nat := 256
/-- `SCAN_STEP`, the length of a scan window (R7, R162). -/
def scanStep : Nat := 10
/-- The starts of the scan windows (R162): the multiples of `SCAN_STEP` from `SCAN_FIRST` that are not above `SCAN_LAST`. -/
def scanStarts : Bytes :=
  [0x00, 0x0a, 0x14, 0x1e, 0x28, 0x32, 0x3c, 0x46, 0x50, 0x5a, 0x64, 0x6e, 0x78, 0x82, 0x8c, 0x96, 0xa0, 0xaa, 0xb4, 0xbe]
/-- `DPI_MIN`, `DPI_MAX`, `DPI_STEP` (R7, R118). -/
def dpiMin : Nat := 50
/-- See `dpiMin`. -/
def dpiMax : Nat := 26000
/-- See `dpiMin`. -/
def dpiStep : Nat := 50
/-- The decided value of the parameter `CAP_P3` (R8, R60, 92_eei_decisions D10), its value at reset. Log 2. -/
def decidedCapP3 : Byte := 0x01

/-! ## The open parameters of R8 -/

/-- One row of `ADDR_MAP`: the address of a scalar field's value and of its checksum (44 R126). -/
structure FieldAddr where
  addr : Byte
  cks  : Byte
  deriving DecidableEq, Repr

/-- The parameters the source leaves open (R8), as plain data. Log 1, log 15. -/
structure Tables where
  /-- `ADDR_MAP`: thirteen rows, in the order of R125's list of names. -/
  scalars      : List FieldAddr
  /-- `MODE_BASE` (R129). -/
  modeBase     : Byte
  /-- `MODE_STRIDE` (R129). -/
  modeStride   : Nat
  /-- `MODE_OFF[0..8]` (R129). -/
  modeOff      : List Nat
  /-- `BTN_ADDR[0..5][0..3]` (R131). -/
  buttons      : List Bytes
  /-- `CAP_P3`, byte `F[5]` of the canonical `CurrentActiveProfile` frame (30_encoding R60; log 2). -/
  capP3        : Byte
  /-- `EK_UNKNOWN_1` (30_encoding R63). -/
  ekUnknown1   : Byte
  /-- `EK_DPI_MODE` (R63). -/
  ekDpiMode    : Byte
  /-- `EK_POWER` (R63). -/
  ekPower      : Byte
  /-- `SETTER_DOMAIN` of the scalar fields: the legal bytes, one row a field in the order of R125 (46 R172). -/
  setterDomain : List Bytes
  /-- `SETTER_DOMAIN` of the LED colour: the triples outside it (R172, R169; log 15). -/
  ledExcluded  : List Bytes
  deriving DecidableEq, Repr

/-- `MODE_ADDR(m, j)` as an integer (R129). -/
def Tables.modeAddrNat (t : Tables) (m j : Nat) : Nat :=
  t.modeBase.toNat + m * t.modeStride + t.modeOff.getD j 0

/-- The 73 named addresses (R125). -/
def Tables.named (t : Tables) : List Nat :=
  t.scalars.flatMap (fun f => [f.addr.toNat, f.cks.toNat])
    ++ (List.range 4).flatMap (fun m => (List.range 8).map (fun j => t.modeAddrNat m j))
    ++ t.buttons.flatten.map BitVec.toNat

/-- No two elements are equal. -/
def distinct : List Nat → Bool
  | []     => true
  | a :: l => !l.contains a && distinct l

/-- The elements are `lo, lo+1, ..` in some order, `lo` the least of them. -/
def consecutive (l : List Nat) : Bool :=
  (List.range l.length).all (fun j => l.contains (l.foldl min (l.headD 0) + j))

/-- How many rows each table has (R125, R128, R131, R63). -/
def Tables.shapeOk (t : Tables) : Bool :=
  t.scalars.length == 13 && t.modeOff.length == 8 && t.buttons.length == 5
    && t.buttons.all (fun b => b.length == 3) && t.setterDomain.length == 13 && decide (0 < t.modeStride)

/-- R127 W2: a scalar field's checksum address is adjacent to its value address. -/
def Tables.w2 (t : Tables) : Bool :=
  t.scalars.all (fun f => f.cks.toNat == f.addr.toNat + 1 || f.addr.toNat == f.cks.toNat + 1)

/-- R127 W3: the four DPI addresses of a mode record are consecutive, and so are the four LED addresses
(a record is its offsets shifted, R129). -/
def Tables.w3 (t : Tables) : Bool :=
  consecutive (t.modeOff.take 4) && consecutive (t.modeOff.drop 4)

/-- R127 W4: no two named addresses are equal. -/
def Tables.w4 (t : Tables) : Bool := distinct t.named

/-- R127 W5 (and with it W1): every named address lies in 0x00..=0xc7. -/
def Tables.w5 (t : Tables) : Bool := t.named.all (fun a => decide (a ≤ 0xc7))

/-- R63: the three kind bytes are pairwise different. -/
def Tables.kindsOk (t : Tables) : Bool :=
  t.ekUnknown1 != t.ekDpiMode && t.ekUnknown1 != t.ekPower && t.ekDpiMode != t.ekPower

/-- No `CurrentActiveProfile` frame is the bare request (R60), as the round trip of 42_frame_parse R113 needs (log 2). -/
def Tables.capOk (t : Tables) : Bool := t.capP3 != 0

/-- The well-formedness check of R127: "a map that breaks them is refused by the model's well-formedness check". -/
def Tables.wf (t : Tables) : Bool :=
  t.shapeOk && t.w2 && t.w3 && t.w4 && t.w5 && t.kindsOk && t.capOk

/-- Tables that pass the check; the model is defined on these only (R127). -/
abbrev WfTables := { t : Tables // t.wf = true }

/-- `TESTMAP` and `TESTKINDS` of 95_test_vectors section 0: invented for testing, not the device's map. The model uses
it to show that well-formed tables exist, and in its own tests. -/
def testTables : Tables where
  scalars := [⟨0x00, 0x01⟩, ⟨0x02, 0x03⟩, ⟨0x04, 0x05⟩, ⟨0x0a, 0x0b⟩, ⟨0x4c, 0x4d⟩, ⟨0x4e, 0x4f⟩, ⟨0x50, 0x51⟩,
    ⟨0x52, 0x53⟩, ⟨0xa9, 0xaa⟩, ⟨0xab, 0xac⟩, ⟨0xaf, 0xb0⟩, ⟨0xb1, 0xb2⟩, ⟨0xb7, 0xb8⟩]
  modeBase := 0x10
  modeStride := 8
  modeOff := [0, 1, 2, 3, 4, 5, 6, 7]
  buttons := [[0x60, 0x61, 0x62], [0x64, 0x65, 0x66], [0x68, 0x69, 0x6a], [0x6c, 0x6d, 0x6e], [0x70, 0x71, 0x72]]
  capP3 := 0x01
  ekUnknown1 := 0x01
  ekDpiMode := 0x02
  ekPower := 0x03
  setterDomain := List.replicate 13 ((List.range 256).map (BitVec.ofNat 8))
  ledExcluded := []

set_option maxRecDepth 8000 in
theorem testTables_wf : testTables.wf = true := by decide

/-- `testTables` with its check. -/
def testWf : WfTables := ⟨testTables, testTables_wf⟩

/-- The parameters of the device, which no source gives (R8): an uninterpreted constant, any well-formed tables.
The argument only says that some exist. Log 1. -/
opaque deviceTables [Inhabited WfTables] : WfTables

/-- Well-formed tables stay so with the decided `CAP_P3`. -/
theorem wf_decidedCapP3 (t : WfTables) : ({ t.val with capP3 := decidedCapP3 } : Tables).wf = true := by
  have h := t.property
  simp only [Tables.wf, Bool.and_eq_true] at h ⊢
  exact ⟨h.1, rfl⟩

/-- The tables of the reset state: the uninterpreted `deviceTables` (log 1), with the decided `CAP_P3` (log 2). -/
def tables : WfTables := ⟨{ (@deviceTables ⟨testWf⟩).val with capP3 := decidedCapP3 }, wf_decidedCapP3 _⟩

end Sys2Proof.Config
end

