-- ==== Sys2Proof/Syntax.lean ====
section
/-! DEFINITION. The instructions (every row of spec/opcode_table.json), their operands, the host's sequences, and what
stands on the block's ports. -/

namespace Sys2Proof

/-- The three kinds of `DeviceEvent` (30_encoding R54, R63). -/
inductive EventKind
  | unknown1 | dpiMode | power
  deriving DecidableEq, Repr

/-- R54: the closed union of exactly seven payload variants. -/
inductive Payload
  | restore
  | requestActiveProfile
  | currentActiveProfile (profile : Byte)
  | setActiveProfile (profile : Byte)
  | deviceEvent (kind : EventKind)
  | requestPowerDetails
  | powerDetails (batteryPercent : Byte) (powerConnected : Bool) (batteryMillivolts : BitVec 16)
  deriving DecidableEq, Repr

/-- The thirteen scalar fields, in the order of 44_address_map R125. -/
inductive ScalarField
  | pollingRate | dpiModeCount | activeDpiMode | liftOffDistance | ledEffect | ledBrightness | ledBreatheSpeed
  | ledEnabled | debounceTime | motionSync | angleSnapping | liftOffRipple | autosleepTime
  deriving DecidableEq, Repr

/-- The group of a mode record's triple (R133). -/
inductive Group
  | dpi | led
  deriving DecidableEq, Repr

/-- A finite map from byte to byte as a list of entries with distinct keys: a write map (R12, R95) or a parameter
assignment (R83). DESIGN CHOICE (log 3): a parameter index is a byte; R83 refuses every index above 13 and gives no upper
width. -/
abbrev ByteMap := List (Byte × Byte)

/-- The two operand shapes of `FIELD_PAIR` (R133). A field is named by a byte, since a port's name input is wider than
the enumeration (R132; log 19). -/
inductive PairOperand
  | scalar (name value : Byte)
  | triple (mode : Byte) (group : Group) (b0 b1 b2 : Byte)
  deriving DecidableEq, Repr

/-- The two operand shapes of `FIELD_RD` (45_mirror R147). -/
inductive FieldOperand
  | scalar (name : Byte)
  | triple (mode : Byte) (group : Group)
  deriving DecidableEq, Repr

/-- One constructor per row of spec/opcode_table.json, in its order. In a frame form, `params` is `F[2..16]` and `ck`
is `F[16]`, as they stand on the wire; the checksum is checked when the frame is used (INDEX.md; R98). -/
inductive Instr
  -- wire frames (30_encoding R57)
  | statusReq
  | statusRsp (params : Bytes) (ck : Byte)
  | powerReq
  | powerRsp (params : Bytes) (ck : Byte)
  | memSetReq (start length : Byte) (data : Bytes) (ck : Byte)      -- `data` is `F[6..16]`, all ten bytes
  | memSetRsp (params : Bytes) (ck : Byte)
  | memGetReq (start length ck : Byte)
  | memGetRsp (params : Bytes) (ck : Byte)
  | restore
  | deviceEvent (params : Bytes) (ck : Byte)
  | activeProfileGetReq
  | activeProfileGetRsp (profile ck : Byte)
  | activeProfileSet (profile ck : Byte)
  -- block operations (R70)
  | cksum (s : Bytes)
  | build (command : Byte) (params : ByteMap)
  | serialize (v : Payload)
  | statusBuild
  | memgetBuild (start : Byte) (length : Nat)
  | memsetBuild (w : ByteMap)
  | rxcheck (s : Bytes)
  | parse (s : Bytes)
  | statusDec (s : Bytes)
  | powerDec (s : Bytes)
  | memgetDec (s : Bytes) (start : Byte) (length : Nat)
  | memsetAck (s : Bytes)
  | dpiEnc (dpi : BitVec 32)
  | dpiDec (raw0 raw1 raw2 : Byte)
  | mapLookup (name : Byte)
  | modeLookup (mode slot : Byte)
  | btnLookup (slot index : Byte)
  | fieldPair (operand : PairOperand)
  | spanCheck (w : ByteMap)
  | mirRd (addr : Byte)
  | mirEmpty
  | mirFill (start : Byte) (data : Bytes)
  | mirWr (w : ByteMap)
  | mirClr
  | fieldRd (operand : FieldOperand)
  | profRd
  | profWr (profile : Byte)
  | profClr
  -- reserved selects (R71)
  | reserved1c
  | reserved1d
  | reserved1e
  | reserved1f
  deriving DecidableEq, Repr

/-- The scalar fields that have a typed setter (46_host_sequences R172). -/
inductive SettableField
  | pollingRate | activeDpiMode | ledEffect | motionSync | angleSnapping | liftOffRipple | liftOffDistance
  | ledBrightness | ledEnabled
  deriving DecidableEq, Repr

/-- The host sequences of 46_host_sequences, which are no rows of the table: what a host may start beside operations. -/
inductive HostCall
  | isOn                                            -- R160
  | getPower                                        -- R161
  | readSettings                                    -- R162
  | memRead (start : Byte) (length : Nat)           -- R163
  | memSet (w : ByteMap)                            -- R165, `_mem_set`
  | memWrite (start : Byte) (values : Bytes)        -- R165, `MemWrite`
  | setField (f : SettableField) (v : Byte)         -- R166, R172
  | getField (f : ScalarField)                      -- R164, R173
  | getProfile                                      -- R167
  | setProfile (p : Byte)                           -- R168
  | setDpi (mode : Byte) (dpi : BitVec 32)          -- R169
  | getDpi (mode : Byte)                            -- R169
  | setLed (mode r g b : Byte)                      -- R169
  | getLed (mode : Byte)                            -- R169
  | restore                                         -- R170
  deriving DecidableEq, Repr

/-- What an instruction is presented as: a byte string on the wire, or an operation's select byte followed by its
operands on the operation port (log 3, log 4). -/
inductive PortWord
  | wire (bytes : Bytes)
  | op (bytes : Bytes)
  deriving DecidableEq, Repr

/-- Why the decoder reads no instruction from a port word. -/
inductive DecodeError
  /-- A byte string of a length other than 17 is no frame (R51). -/
  | wrongLength
  /-- `F[0]` is not 0x08 (R52). -/
  | badHeader
  /-- `F[1]` is not a command (R56). -/
  | unknownCommand
  /-- The frame has the shape of no form of its command (R57, R66(f)). -/
  | noForm
  /-- An operation word without a select byte. -/
  | emptyWord
  /-- The operands end before the operation has all of them. -/
  | truncated
  /-- A tag byte that names no shape, variant, kind or boolean. -/
  | badTag
  /-- A map operand with a key given twice, which is no map. -/
  | duplicateKey
  /-- A byte other than the zero padding after the last operand. -/
  | trailingBytes
  deriving DecidableEq, Repr

end Sys2Proof
end

