-- ==== Sys2Proof/Machine/Operands.lean ====
section
/-! DEFINITION. Operand forms: frames and their fields (spec/30_encoding.md R52, R57 to R65), the command byte (R55),
event kinds (R63), field names (44_address_map R125), byte maps (R95, R143) and the number formats of the ports. -/

namespace Sys2Proof.Machine

/-! ## Frames -/

/-- `F[i]` (R11). A byte the string does not have reads as zero; every use is on a string long enough. -/
def byteAt (F : Bytes) (i : Nat) : Byte := F.getD i 0

/-- Fourteen zero parameter bytes: the parameters of a bare frame (41_frame_build R85). -/
def zeroParams : Bytes := List.replicate Config.nParam 0

/-- The wire form `[0x08, command, p2..p15, checksum]` (R34, R52), the checksum byte as given. -/
def frameBytes (command : Byte) (params : Bytes) (ck : Byte) : Bytes :=
  Config.header :: command :: (params ++ [ck])

/-- The parameters `F[2..16]` of a 17-byte string (R11). -/
def paramsOf (F : Bytes) : Bytes := (F.drop 2).take Config.nParam

/-- A byte as a boolean: true when it is not zero (R115, R65). -/
def isTrue (b : Byte) : Bool := b != 0

/-- A boolean as a byte: 0x01 for true, 0x00 for false (R65). -/
def ofFlag (b : Bool) : Byte := if b then 0x01 else 0x00

/-- The high byte of a 16-bit value, which is first on the wire (R35). -/
def hi16 (v : BitVec 16) : Byte := v.extractLsb' 8 8

/-- The low byte of a 16-bit value (R35). -/
def lo16 (v : BitVec 16) : Byte := v.extractLsb' 0 8

/-- `high*256 + low`, big-endian (R35, R65). -/
def be16 (high low : Byte) : BitVec 16 := high ++ low

/-- Four bytes, the most significant first, of a 32-bit operand (log 3). -/
def be32 (b3 b2 b1 b0 : Byte) : BitVec 32 := b3 ++ b2 ++ b1 ++ b0

/-- `PowerDetails` of a frame: `F[6]`, `F[7]`, and `F[8]`, `F[9]` big-endian (R61, R65). -/
def powerDetailsOf (F : Bytes) : Payload :=
  .powerDetails (byteAt F 6) (isTrue (byteAt F 7)) (be16 (byteAt F 8) (byteAt F 9))

/-- The data bytes `F[6], .., F[6+length-1]` of a window (R58, R36). -/
def dataOf (F : Bytes) (length : Nat) : Bytes := (F.drop 6).take length

/-! ## Commands and kinds -/

/-- The command codes of R55. -/
def cmdStatus : Byte := 0x03
/-- See `cmdStatus`. -/
def cmdPower : Byte := 0x04
/-- See `cmdStatus`. -/
def cmdMemSet : Byte := 0x07
/-- See `cmdStatus`. -/
def cmdMemGet : Byte := 0x08
/-- See `cmdStatus`. -/
def cmdRestore : Byte := 0x09
/-- See `cmdStatus`. -/
def cmdDeviceEvent : Byte := 0x0a
/-- See `cmdStatus`. -/
def cmdProfileGet : Byte := 0x0e
/-- See `cmdStatus`. -/
def cmdProfileSet : Byte := 0x0f

/-- R55, R56: the byte is one of the eight command codes. -/
def isCommand (c : Byte) : Bool :=
  c == cmdStatus || c == cmdPower || c == cmdMemSet || c == cmdMemGet || c == cmdRestore || c == cmdDeviceEvent
    || c == cmdProfileGet || c == cmdProfileSet

/-- The kind byte that `EVENT_KIND` assigns to a kind (R63, R90). -/
def kindByte (t : Config.Tables) : EventKind → Byte
  | .unknown1 => t.ekUnknown1
  | .dpiMode  => t.ekDpiMode
  | .power    => t.ekPower

/-- The table `EVENT_KIND` (R63): the kind of a kind byte, tried in the order of 42_frame_parse R102. -/
def kindOf (t : Config.Tables) (k : Byte) : Option EventKind :=
  if k = t.ekUnknown1 then some .unknown1
  else if k = t.ekDpiMode then some .dpiMode
  else if k = t.ekPower then some .power
  else none

/-! ## The request forms of MEM_SET and MEM_GET (R57 forms 5 and 7, R58) -/

/-- A window of `length` bytes at `start` is a transaction: 1 to 10 bytes (R39), not past 0xff (R38). -/
def windowOk (start length : Nat) : Bool :=
  decide (1 ≤ length) && decide (length ≤ Config.maxXfer) && decide (start + length ≤ Config.mirrorDepth)

/-- `P[0..14]` of a MEM_GET request: start and length, everything else zero (R58, R94). -/
def memGetParams (start length : Byte) : Bytes := [0, 0, start, length] ++ List.replicate 10 0

/-- `P[0..14]` of a MEM_SET request: start, length, and the ten data positions (R58). -/
def memSetParams (start length : Byte) (data : Bytes) : Bytes := [0, 0, start, length] ++ data

/-- `P[0..14]` of a profile frame: `P[3]`, the profile, everything else zero. `P[3]` is 0x01 in ACTIVE_PROFILE_SET (R59)
and the parameter `CAP_P3` in the ACTIVE_PROFILE_GET response (R60). -/
def profileParams (p3 profile : Byte) : Bytes := [0, 0, 0, p3, profile] ++ List.replicate 9 0

/-- The profile byte `P[4]` of a parameter string (R59, R60). -/
def profileOf (params : Bytes) : Byte := params.getD 4 0

/-- The start byte `P[2]` of a parameter string (R58). -/
def startOf (params : Bytes) : Byte := params.getD 2 0

/-- The length byte `P[3]` of a parameter string (R58). -/
def lengthOf (params : Bytes) : Byte := params.getD 3 0

/-- The parameters have the form of a MEM_GET request (form 7): all of them zero but start and length, as the table's
mask has it (log 6). -/
def isMemGetReq (params : Bytes) : Bool := params == memGetParams (startOf params) (lengthOf params)

/-- The data positions `P[4..14]` of a parameter string (R58). -/
def paramData (params : Bytes) : Bytes := params.drop 4

/-- The parameters have the form of a MEM_SET request (form 5): `P[0]` and `P[1]` are zero, as the table's mask has it
(log 6). -/
def isMemSetReq (params : Bytes) : Bool := params == memSetParams (startOf params) (lengthOf params) (paramData params)

/-! ## Field names -/

/-- The position of a scalar field in R125's list, from 0. -/
def fieldIndex : ScalarField → Nat
  | .pollingRate => 0 | .dpiModeCount => 1 | .activeDpiMode => 2 | .liftOffDistance => 3 | .ledEffect => 4
  | .ledBrightness => 5 | .ledBreatheSpeed => 6 | .ledEnabled => 7 | .debounceTime => 8 | .motionSync => 9
  | .angleSnapping => 10 | .liftOffRipple => 11 | .autosleepTime => 12

/-- The byte that names a scalar field on the port: its position (log 19). -/
def fieldByte (f : ScalarField) : Byte := BitVec.ofNat 8 (fieldIndex f)

/-- The scalar field a name byte names, if any (R132; log 19). -/
def fieldOf (name : Byte) : Option ScalarField :=
  match name.toNat with
  | 0 => some .pollingRate
  | 1 => some .dpiModeCount
  | 2 => some .activeDpiMode
  | 3 => some .liftOffDistance
  | 4 => some .ledEffect
  | 5 => some .ledBrightness
  | 6 => some .ledBreatheSpeed
  | 7 => some .ledEnabled
  | 8 => some .debounceTime
  | 9 => some .motionSync
  | 10 => some .angleSnapping
  | 11 => some .liftOffRipple
  | 12 => some .autosleepTime
  | _ => none

/-- The scalar field of a typed setter (46_host_sequences R172). -/
def settable : SettableField → ScalarField
  | .pollingRate => .pollingRate
  | .activeDpiMode => .activeDpiMode
  | .ledEffect => .ledEffect
  | .motionSync => .motionSync
  | .angleSnapping => .angleSnapping
  | .liftOffRipple => .liftOffRipple
  | .liftOffDistance => .liftOffDistance
  | .ledBrightness => .ledBrightness
  | .ledEnabled => .ledEnabled

/-- The first slot of a group in a mode record: 0 for DPI, 4 for LED (R133, R128). -/
def groupSlot : Group → Nat
  | .dpi => 0
  | .led => 4

/-! ## Byte maps -/

/-- `A[k]`, if `k` is a key. -/
def lookupKey (m : ByteMap) (k : Byte) : Option Byte :=
  match m with
  | [] => none
  | (a, v) :: r => if a = k then some v else lookupKey r k

/-- No key is given twice: the list is a map (R143: "its keys are distinct because it is a map"). -/
def distinctKeys : ByteMap → Bool
  | [] => true
  | (a, _) :: r => (lookupKey r a).isNone && distinctKeys r

/-- `min(keys(W))` (R143); 256, above every key, for the empty map. -/
def minKey : ByteMap → Nat
  | [] => Config.mirrorDepth
  | (a, _) :: r => min a.toNat (minKey r)

/-- `{start+j: data[j]}` (R165). -/
def windowMap (start : Byte) (data : Bytes) : ByteMap :=
  match data with
  | [] => []
  | v :: r => (start, v) :: windowMap (start + 1) r

end Sys2Proof.Machine
end

