-- ==== Sys2Proof/WellFormed.lean ====
section
/-! DEFINITION. Which terms of `Instr` stand for instructions of the table: the checks of the frame forms
(spec/30_encoding.md R57, R58), and that a byte map is a map (45_mirror R143). A byte string of any length is well formed
(40_checksum R77), and so is an operand that a meaning refuses (a bad command, mode, length or name: 60_exceptions R177):
the port can present it. -/

namespace Sys2Proof

/-- The bytes of a response form: fourteen parameters that are not those of a request form of the same command, which
the parser tells apart by content (R68; log 6). -/
def responseFits (params : Bytes) (isRequest : Bool) : Bool := params.length == Config.nParam && !isRequest

/-- The well-formed instructions. -/
def wellFormed : Instr → Bool
  | .statusReq => true
  | .statusRsp p c => responseFits p (p == Machine.zeroParams && c == 0x4a)
  | .powerReq => true
  | .powerRsp p c => responseFits p (p == Machine.zeroParams && c == 0x49)
  | .memSetReq _ _ data _ => data.length == Config.maxXfer
  | .memSetRsp p _ => responseFits p (Machine.isMemSetReq p)
  | .memGetReq _ _ _ => true
  | .memGetRsp p _ => responseFits p (Machine.isMemGetReq p)
  | .restore => true
  | .deviceEvent p _ => responseFits p false
  | .activeProfileGetReq => true
  | .activeProfileGetRsp _ _ => true
  | .activeProfileSet _ _ => true
  | .cksum _ => true
  | .build _ a => Machine.distinctKeys a
  | .serialize _ => true
  | .statusBuild => true
  | .memgetBuild _ _ => true
  | .memsetBuild w => Machine.distinctKeys w
  | .rxcheck _ => true
  | .parse _ => true
  | .statusDec _ => true
  | .powerDec _ => true
  | .memgetDec _ _ _ => true
  | .memsetAck _ => true
  | .dpiEnc _ => true
  | .dpiDec _ _ _ => true
  | .mapLookup _ => true
  | .modeLookup _ _ => true
  | .btnLookup _ _ => true
  | .fieldPair _ => true
  | .spanCheck w => Machine.distinctKeys w
  | .mirRd _ => true
  | .mirEmpty => true
  | .mirFill _ _ => true
  | .mirWr w => Machine.distinctKeys w
  | .mirClr => true
  | .fieldRd _ => true
  | .profRd => true
  | .profWr _ => true
  | .profClr => true
  | .reserved1c => true
  | .reserved1d => true
  | .reserved1e => true
  | .reserved1f => true

end Sys2Proof
end

