-- ==== Sys2Proof/Decode.lean ====
section
/-! DEFINITION. The decoder of port words, total and rejecting by name, and the encoder. A wire frame is read by content
(spec/30_encoding.md R57, R68); an operation by its 5-bit select (R70, R71), its operands by the serialisation of log 3. -/

namespace Sys2Proof

open Machine

/-! ## Wire frames -/

/-- The form of a 17-byte string with the header, by command and content. The most special form of a command comes
first: "a request row is a special case of the response row of the same command" (INDEX.md, R68). `cap` is the parameter
`CAP_P3` (R8), byte `F[5]` of the ACTIVE_PROFILE_GET response (R57 form 12, R60; log 2). -/
def decodeForm (cap c : Byte) (p : Bytes) (k : Byte) : Except DecodeError Instr :=
  if c = cmdStatus then
    if p = zeroParams ∧ k = 0x4a then .ok .statusReq else .ok (.statusRsp p k)
  else if c = cmdPower then
    if p = zeroParams ∧ k = 0x49 then .ok .powerReq else .ok (.powerRsp p k)
  else if c = cmdMemSet then
    if isMemSetReq p then .ok (.memSetReq (startOf p) (lengthOf p) (paramData p) k) else .ok (.memSetRsp p k)
  else if c = cmdMemGet then
    if isMemGetReq p then .ok (.memGetReq (startOf p) (lengthOf p) k) else .ok (.memGetRsp p k)
  else if c = cmdRestore then
    if p = zeroParams ∧ k = 0x44 then .ok .restore else .error .noForm
  else if c = cmdDeviceEvent then .ok (.deviceEvent p k)
  else if c = cmdProfileGet then
    if p = zeroParams ∧ k = 0x3f then .ok .activeProfileGetReq
    else if p = profileParams cap (profileOf p) then .ok (.activeProfileGetRsp (profileOf p) k)
    else .error .noForm
  else if c = cmdProfileSet then
    if p = profileParams 0x01 (profileOf p) then .ok (.activeProfileSet (profileOf p) k)
    else .error .noForm
  else .error .unknownCommand

/-- The frame form of a byte string: 17 bytes (R51), the header (R52), then the forms of its command. -/
def decodeFrame (cap : Byte) (F : Bytes) : Except DecodeError Instr :=
  if F.length ≠ Config.frameLen then .error .wrongLength
  else if byteAt F 0 ≠ Config.header then .error .badHeader
  else decodeForm cap (byteAt F 1) (paramsOf F) (byteAt F 16)

/-! ## Operations: reading operands (log 3) -/

/-- One byte. -/
def takeByte : Bytes → Except DecodeError (Byte × Bytes)
  | [] => .error .truncated
  | b :: r => .ok (b, r)

/-- A 32-bit operand, four bytes, the most significant first. -/
def takeWord32 (bs : Bytes) : Except DecodeError (BitVec 32 × Bytes) := do
  let (b3, r) ← takeByte bs
  let (b2, r) ← takeByte r
  let (b1, r) ← takeByte r
  let (b0, r) ← takeByte r
  .ok (be32 b3 b2 b1 b0, r)

/-- A byte string of any length (R77): 0x01 before each byte, 0x00 after the last. -/
def takeSeq : Bytes → Except DecodeError (Bytes × Bytes)
  | [] => .error .truncated
  | tag :: bs =>
    if tag = 0 then .ok ([], bs)
    else if tag = 1 then
      match bs with
      | [] => .error .truncated
      | b :: r => (takeSeq r).map (fun x => (b :: x.1, x.2))
    else .error .badTag

/-- The value of a byte string, the least significant byte first. -/
def natOf : Bytes → Nat
  | [] => 0
  | b :: r => b.toNat + 256 * natOf r

/-- An unsigned integer of any size (R94): its bytes as a byte string, the least significant first. -/
def takeNat (bs : Bytes) : Except DecodeError (Nat × Bytes) := (takeSeq bs).map (fun x => (natOf x.1, x.2))

/-- The entries of a map: 0x01, key and value for each, 0x00 after the last. -/
def takeEntries : Bytes → Except DecodeError (ByteMap × Bytes)
  | [] => .error .truncated
  | tag :: bs =>
    if tag = 0 then .ok ([], bs)
    else if tag = 1 then
      match bs with
      | a :: v :: r => (takeEntries r).map (fun x => ((a, v) :: x.1, x.2))
      | _ => .error .truncated
    else .error .badTag

/-- A byte map: its entries, no key twice. -/
def takeMap (bs : Bytes) : Except DecodeError (ByteMap × Bytes) := do
  let (m, r) ← takeEntries bs
  if distinctKeys m then .ok (m, r) else .error .duplicateKey

/-- A boolean byte, 0x00 or 0x01. -/
def takeFlag (bs : Bytes) : Except DecodeError (Bool × Bytes) := do
  let (b, r) ← takeByte bs
  if b = 0 then .ok (false, r) else if b = 1 then .ok (true, r) else .error .badTag

/-- An event kind: 0, 1 or 2 in the order of R54. -/
def takeKind (bs : Bytes) : Except DecodeError (EventKind × Bytes) := do
  let (b, r) ← takeByte bs
  if b = 0 then .ok (.unknown1, r) else if b = 1 then .ok (.dpiMode, r) else if b = 2 then .ok (.power, r)
  else .error .badTag

/-- A payload: the number of its variant in R54, then its fields. -/
def takePayload (bs : Bytes) : Except DecodeError (Payload × Bytes) := do
  let (tag, r) ← takeByte bs
  if tag = 0 then .ok (.restore, r)
  else if tag = 1 then .ok (.requestActiveProfile, r)
  else if tag = 2 then do
    let (p, r) ← takeByte r
    .ok (.currentActiveProfile p, r)
  else if tag = 3 then do
    let (p, r) ← takeByte r
    .ok (.setActiveProfile p, r)
  else if tag = 4 then do
    let (k, r) ← takeKind r
    .ok (.deviceEvent k, r)
  else if tag = 5 then .ok (.requestPowerDetails, r)
  else if tag = 6 then do
    let (b, r) ← takeByte r
    let (f, r) ← takeFlag r
    let (h, r) ← takeByte r
    let (l, r) ← takeByte r
    .ok (.powerDetails b f (be16 h l), r)
  else .error .badTag

/-- The operand of `FIELD_PAIR`: shape 0 (scalar), 1 (DPI triple) or 2 (LED triple), then its bytes. -/
def takePairOperand (bs : Bytes) : Except DecodeError (PairOperand × Bytes) := do
  let (tag, r) ← takeByte bs
  if tag = 0 then do
    let (n, r) ← takeByte r
    let (v, r) ← takeByte r
    .ok (.scalar n v, r)
  else if tag = 1 ∨ tag = 2 then do
    let (m, r) ← takeByte r
    let (b0, r) ← takeByte r
    let (b1, r) ← takeByte r
    let (b2, r) ← takeByte r
    .ok (.triple m (if tag = 1 then .dpi else .led) b0 b1 b2, r)
  else .error .badTag

/-- The operand of `FIELD_RD`: shape 0 (scalar), 1 (DPI triple) or 2 (LED triple), then the name or the mode. -/
def takeFieldOperand (bs : Bytes) : Except DecodeError (FieldOperand × Bytes) := do
  let (tag, r) ← takeByte bs
  let (n, r) ← takeByte r
  if tag = 0 then .ok (.scalar n, r)
  else if tag = 1 then .ok (.triple n .dpi, r)
  else if tag = 2 then .ok (.triple n .led, r)
  else .error .badTag

/-- The end of an operation word: only zero padding may follow the last operand. -/
def ended (i : Instr) (rest : Bytes) : Except DecodeError Instr :=
  if rest.all (fun b => b == 0) then .ok i else .error .trailingBytes

/-- An operation with no operand. -/
def op0 (i : Instr) (bs : Bytes) : Except DecodeError Instr := ended i bs

/-- An operation whose operand is read by `take`. -/
def op1 {α : Type} (take : Bytes → Except DecodeError (α × Bytes)) (f : α → Instr) (bs : Bytes) :
    Except DecodeError Instr := do
  let (a, r) ← take bs
  ended (f a) r

/-- An operation whose operands are read by `takeA`, then `takeB`. -/
def op2 {α β : Type} (takeA : Bytes → Except DecodeError (α × Bytes)) (takeB : Bytes → Except DecodeError (β × Bytes))
    (f : α → β → Instr) (bs : Bytes) : Except DecodeError Instr := do
  let (a, r) ← takeA bs
  let (b, r) ← takeB r
  ended (f a b) r

/-- An operation with three operands. -/
def op3 {α β γ : Type} (takeA : Bytes → Except DecodeError (α × Bytes)) (takeB : Bytes → Except DecodeError (β × Bytes))
    (takeC : Bytes → Except DecodeError (γ × Bytes)) (f : α → β → γ → Instr) (bs : Bytes) : Except DecodeError Instr := do
  let (a, r) ← takeA bs
  let (b, r) ← takeB r
  let (c, r) ← takeC r
  ended (f a b c) r

/-- R70, R71: the operation of a select number, its operands read from `bs`. A reserved select has none, so whatever
follows it is not looked at. -/
def decodeOperands (sel : Nat) (bs : Bytes) : Except DecodeError Instr :=
  match sel with
  | 0x00 => op1 takeSeq .cksum bs
  | 0x01 => op2 takeByte takeMap .build bs
  | 0x02 => op1 takePayload .serialize bs
  | 0x03 => op0 .statusBuild bs
  | 0x04 => op2 takeByte takeNat .memgetBuild bs
  | 0x05 => op1 takeMap .memsetBuild bs
  | 0x06 => op1 takeSeq .rxcheck bs
  | 0x07 => op1 takeSeq .parse bs
  | 0x08 => op1 takeSeq .statusDec bs
  | 0x09 => op1 takeSeq .powerDec bs
  | 0x0a => op3 takeSeq takeByte takeNat .memgetDec bs
  | 0x0b => op1 takeSeq .memsetAck bs
  | 0x0c => op1 takeWord32 .dpiEnc bs
  | 0x0d => op3 takeByte takeByte takeByte .dpiDec bs
  | 0x0e => op1 takeByte .mapLookup bs
  | 0x0f => op2 takeByte takeByte .modeLookup bs
  | 0x10 => op2 takeByte takeByte .btnLookup bs
  | 0x11 => op1 takePairOperand .fieldPair bs
  | 0x12 => op1 takeMap .spanCheck bs
  | 0x13 => op1 takeByte .mirRd bs
  | 0x14 => op0 .mirEmpty bs
  | 0x15 => op2 takeByte takeSeq .mirFill bs
  | 0x16 => op1 takeMap .mirWr bs
  | 0x17 => op0 .mirClr bs
  | 0x18 => op1 takeFieldOperand .fieldRd bs
  | 0x19 => op0 .profRd bs
  | 0x1a => op1 takeByte .profWr bs
  | 0x1b => op0 .profClr bs
  | 0x1c => .ok .reserved1c
  | 0x1d => .ok .reserved1d
  | 0x1e => .ok .reserved1e
  | _    => .ok .reserved1f

/-- An operation word: the select is the low five bits of the first byte (R70, the table's mask 0x1f). -/
def decodeOp : Bytes → Except DecodeError Instr
  | [] => .error .emptyWord
  | b :: bs => decodeOperands (b.toNat % 32) bs

/-- The decoder, with `CAP_P3` for `cap`. -/
def decode (cap : Byte) : PortWord → Except DecodeError Instr
  | .wire F => decodeFrame cap F
  | .op bs => decodeOp bs

/-! ## The encoder -/

/-- A byte string: 0x01 before each byte, 0x00 after the last. -/
def seqBytes : Bytes → Bytes
  | [] => [0]
  | b :: r => 1 :: b :: seqBytes r

/-- A byte map: 0x01, key and value for each entry, 0x00 after the last. -/
def mapBytes : ByteMap → Bytes
  | [] => [0]
  | (a, v) :: r => 1 :: a :: v :: mapBytes r

/-- The bytes of an unsigned integer, the least significant first, at most `fuel` of them. -/
def natDigits : Nat → Nat → Bytes
  | 0, _ => []
  | fuel + 1, n => if n = 0 then [] else BitVec.ofNat 8 n :: natDigits fuel (n / 256)

/-- An unsigned integer: its bytes as a byte string. -/
def natBytes (n : Nat) : Bytes := seqBytes (natDigits n n)

/-- A 32-bit operand, the most significant byte first. -/
def word32Bytes (v : BitVec 32) : Bytes :=
  [v.extractLsb' 24 8, v.extractLsb' 16 8, v.extractLsb' 8 8, v.extractLsb' 0 8]

/-- The number of an event kind (R54's order). -/
def kindTag : EventKind → Byte
  | .unknown1 => 0
  | .dpiMode => 1
  | .power => 2

/-- A payload: the number of its variant, then its fields. -/
def payloadBytes : Payload → Bytes
  | .restore => [0]
  | .requestActiveProfile => [1]
  | .currentActiveProfile p => [2, p]
  | .setActiveProfile p => [3, p]
  | .deviceEvent k => [4, kindTag k]
  | .requestPowerDetails => [5]
  | .powerDetails b f m => [6, b, ofFlag f, hi16 m, lo16 m]

/-- The number of a triple's shape. -/
def groupTag : Group → Byte
  | .dpi => 1
  | .led => 2

/-- The operand of `FIELD_PAIR`. -/
def pairOperandBytes : PairOperand → Bytes
  | .scalar n v => [0, n, v]
  | .triple m g b0 b1 b2 => [groupTag g, m, b0, b1, b2]

/-- The operand of `FIELD_RD`. -/
def fieldOperandBytes : FieldOperand → Bytes
  | .scalar n => [0, n]
  | .triple m g => [groupTag g, m]

/-- The port word of an instruction: a frame form's 17 bytes (R57), with `CAP_P3` for `cap`, or an operation's select
(R70) and operands. -/
def encode (cap : Byte) : Instr → PortWord
  | .statusReq => .wire (frameBytes cmdStatus zeroParams 0x4a)
  | .statusRsp p k => .wire (frameBytes cmdStatus p k)
  | .powerReq => .wire (frameBytes cmdPower zeroParams 0x49)
  | .powerRsp p k => .wire (frameBytes cmdPower p k)
  | .memSetReq start length data k => .wire (frameBytes cmdMemSet (memSetParams start length data) k)
  | .memSetRsp p k => .wire (frameBytes cmdMemSet p k)
  | .memGetReq start length k => .wire (frameBytes cmdMemGet (memGetParams start length) k)
  | .memGetRsp p k => .wire (frameBytes cmdMemGet p k)
  | .restore => .wire (frameBytes cmdRestore zeroParams 0x44)
  | .deviceEvent p k => .wire (frameBytes cmdDeviceEvent p k)
  | .activeProfileGetReq => .wire (frameBytes cmdProfileGet zeroParams 0x3f)
  | .activeProfileGetRsp p k => .wire (frameBytes cmdProfileGet (profileParams cap p) k)
  | .activeProfileSet p k => .wire (frameBytes cmdProfileSet (profileParams 0x01 p) k)
  | .cksum s => .op (0x00 :: seqBytes s)
  | .build c a => .op (0x01 :: c :: mapBytes a)
  | .serialize v => .op (0x02 :: payloadBytes v)
  | .statusBuild => .op [0x03]
  | .memgetBuild start length => .op (0x04 :: start :: natBytes length)
  | .memsetBuild w => .op (0x05 :: mapBytes w)
  | .rxcheck s => .op (0x06 :: seqBytes s)
  | .parse s => .op (0x07 :: seqBytes s)
  | .statusDec s => .op (0x08 :: seqBytes s)
  | .powerDec s => .op (0x09 :: seqBytes s)
  | .memgetDec s start length => .op (0x0a :: (seqBytes s ++ start :: natBytes length))
  | .memsetAck s => .op (0x0b :: seqBytes s)
  | .dpiEnc d => .op (0x0c :: word32Bytes d)
  | .dpiDec r0 r1 r2 => .op [0x0d, r0, r1, r2]
  | .mapLookup n => .op [0x0e, n]
  | .modeLookup m j => .op [0x0f, m, j]
  | .btnLookup s i => .op [0x10, s, i]
  | .fieldPair o => .op (0x11 :: pairOperandBytes o)
  | .spanCheck w => .op (0x12 :: mapBytes w)
  | .mirRd a => .op [0x13, a]
  | .mirEmpty => .op [0x14]
  | .mirFill start d => .op (0x15 :: start :: seqBytes d)
  | .mirWr w => .op (0x16 :: mapBytes w)
  | .mirClr => .op [0x17]
  | .fieldRd o => .op (0x18 :: fieldOperandBytes o)
  | .profRd => .op [0x19]
  | .profWr p => .op [0x1a, p]
  | .profClr => .op [0x1b]
  | .reserved1c => .op [0x1c]
  | .reserved1d => .op [0x1d]
  | .reserved1e => .op [0x1e]
  | .reserved1f => .op [0x1f]

/-! ## The table's words -/

/-- The bytes of a number of `n` bytes, the least significant first. -/
def littleBytes : Nat → Nat → Bytes
  | 0, _ => []
  | n + 1, w => BitVec.ofNat 8 w :: littleBytes n (w / 256)

/-- The port word of a word of the opcode table. A row of 136 bits is a frame: the table writes it in wire order, `F[0]`
first, as one number (INDEX.md, 98_reader), so `F[0]` is its most significant byte. A shorter row is an operation's
select, followed by operand bytes of zeros (log 3, log 4). -/
def tableWord (nbits w : Nat) : PortWord :=
  if nbits = 136 then .wire (littleBytes 17 w).reverse
  else .op (littleBytes (nbits / 8) w ++ List.replicate 16 0)

/-- The instruction the decoder reads from a word of the opcode table, which has the decided `CAP_P3`, 0x01. -/
def decodeTableWord (nbits w : Nat) : Option Instr :=
  match decode Config.decidedCapP3 (tableWord nbits w) with
  | .ok i => some i
  | .error _ => none

end Sys2Proof
end

