-- ==== Sys2Proof/Machine/State.lean ====
section
/-! DEFINITION. The results of operations (spec/60_exceptions.md R177, R178), the state of the machine (10_state R13 to
R22, 70_reset_and_hazards R212), the reset state (R25), and the reasons a step can stop. -/

namespace Sys2Proof.Machine

/-! ## Results -/

/-- R178: the thirteen errors. `transportError` carries what the collaborator put in it, which nothing inspects. -/
inductive Err
  | checksumMismatch | malformedFrame | unknownCommand | unknownDeviceEvent | notImplemented | unexpectedResponse
  | protocolMismatch | invalidWriteSpan | deviceOff | outOfRange | notAMultiple | inconsistent
  | transportError (info : Bytes)
  deriving DecidableEq, Repr

/-- R177: the ten reasons of `Refused`, a RESULT of the block (not a refusal of the model). -/
inductive Reason
  | badOp | badCommand | badParamIndex | badLength | addressOverflow | wrongCommand | badMode | badSlot | badIndex | badName
  deriving DecidableEq, Repr

/-- R177: what a `Miss` names, a mirror entry or the profile cache. -/
inductive MissAt
  | entry (a : Byte)
  | prof
  deriving DecidableEq, Repr

/-- R177: the four result classes, over the type of the value of `Ok`. -/
inductive Res (α : Type)
  | ok (a : α)
  | error (e : Err)
  | miss (m : MissAt)
  | refused (r : Reason)
  deriving DecidableEq, Repr

/-- The values of `Ok` (opcode_table.json, "out"). -/
inductive Val
  | unit
  | byte (b : Byte)
  | flag (b : Bool)
  | bytes (s : Bytes)                        -- a frame, data bytes, a triple
  | dpi (d : BitVec 32)
  | payload (p : Payload)
  | addrPair (addr cks : Byte)
  | span (start : Byte) (length : Nat)
  | map (w : ByteMap)
  deriving DecidableEq, Repr

/-- A result as it is handed to the host. -/
abbrev Result := Res Val

/-! ## The host sequencer and its surroundings -/

/-- What a getter's scan is for: the getter to repeat when `read_settings` has ended (46_host_sequences R164). -/
inductive AfterScan
  | nothing
  | getField (f : ScalarField)
  | getDpi (mode : Byte)
  | getLed (mode : Byte)
  deriving DecidableEq, Repr

/-- The in-flight request (10_state R22): the sequence that is suspended in `read()`, with what it needs to go on. -/
inductive HostSeq
  | isOn                                                        -- R160, awaits command 0x03
  | getPower                                                    -- R161, awaits command 0x04
  | memRead (start : Byte) (length : Nat)                       -- R163, awaits command 0x08
  | scan (start : Byte) (rest : Bytes) (after : AfterScan)      -- R162: this window, the windows after it
  | memSetStatus (w : ByteMap)                                  -- R165 step 2, awaits command 0x03
  | memSetAck (w : ByteMap)                                     -- R165 step 4, awaits command 0x07
  | getProfile                                                  -- R167, awaits `CurrentActiveProfile`
  | setProfile (p : Byte)                                       -- R168, awaits `SetActiveProfile`
  | restore                                                     -- R170, reads one frame
  deriving DecidableEq, Repr

/-- One answer of `read()` (R155): a byte string of any length, or a `TransportError`. -/
inductive RxItem
  | bytes (b : Bytes)
  | fails (info : Bytes)
  deriving DecidableEq, Repr

/-- One answer of `write()` (R155). -/
inductive WriteAnswer
  | accepts
  | fails (info : Bytes)
  deriving DecidableEq, Repr

/-- One item of the port: what happens next at the block's surroundings, in order (log 11). -/
inductive PortItem
  | word (w : PortWord)         -- an instruction: an operation, or a wire frame (log 5)
  | call (c : HostCall)         -- the host starts a sequence
  | arrives (b : Bytes)         -- the device puts a byte string on the stream (R6(4), R183)
  | readFails (info : Bytes)    -- the stream gets a `TransportError`
  | answers (a : WriteAnswer)   -- the transport answers one more coming write so
  | reset                       -- the reset input (70_reset_and_hazards R197), before whatever comes next
  | resetInTurn                 -- the reset input inside the sequencer's next turn, between two of its operations (log 12)
  | readFirst                   -- nothing happens: what follows comes after one more read from `RXQ` (R197; log 12)
  deriving DecidableEq, Repr

/-! ## The state -/

/-- The state of the machine: the block's `(M, PROF)` (R13), the host's in-flight request (R22), the transport (R21,
R155), the observable outcome (R212) and the constant tables (R20, carried so that one step serves every choice of the
parameters of R8; log 1). -/
structure State where
  /-- The constant tables of R20; nothing writes them. -/
  cfg      : Config.WfTables
  /-- `M` (R14): the valid entries, addresses strictly rising; an address that is not listed is invalid (log 14). -/
  mirror   : List Host.Cell
  /-- `PROF` (R17): the source's `Option<Profile>`. -/
  prof     : Option Byte
  /-- The in-flight request (R22): at most one. -/
  inflight : Option HostSeq
  /-- `RXQ` (R21): what `read()` will return, in order (log 9). -/
  rxq      : List RxItem
  /-- The transport's answers to the coming writes; past its end every write is accepted (log 10). -/
  writes   : List WriteAnswer
  /-- The frames written to the transport, in order (R212). -/
  tx       : List Bytes
  /-- The results returned, in order (R212, R187; log 13). -/
  results  : List Result
  /-- What the host and the environment do next (R212; log 11). -/
  port     : List PortItem
  deriving DecidableEq, Repr

/-- R25, R198: no valid entry, no cached profile, no request in flight. The fields that are no state of the block hold
nothing (log 9 to log 13); the tables are the uninterpreted ones (log 1). -/
def State.reset : State where
  cfg := Config.tables
  mirror := []
  prof := none
  inflight := none
  rxq := []
  writes := []
  tx := []
  results := []
  port := []

/-- Why the machine stops with a fault: never. "The block never halts; it has no stop state" (R212); its errors are
results (R177, R186). Nothing raises one, so this is neither safe nor unsafe (log 17). -/
inductive Fault
  deriving DecidableEq, Repr

/-- Why a step has no meaning. -/
inductive Refusal
  /-- Raised by `exec` for an instruction without a meaning: no arm does so. Safe. -/
  | notModelled (mnemonic : String)
  /-- Raised by the step when an operation word is no serialisation of an operation and operands (log 16): the spec
  gives the port no such word. Safe: nothing follows from a step that stops. -/
  | portWord (e : DecodeError)
  deriving DecidableEq, Repr

/-- The outcome of a step of this machine. -/
abbrev Outcome := Host.Outcome State Fault Refusal

end Sys2Proof.Machine
end

