-- ==== Sys2Proof/Machine/Ops.lean ====
section
/-! DEFINITION. The named operations over the state: the mirror (spec/10_state.md R14, 00_scope R12), the profile cache
(R17), results and errors (60_exceptions R177, R186), and the transport (46_host_sequences R155). -/

namespace Sys2Proof.Machine

/-! ## Results -/

/-- Go on with the value of an `Ok`; any other result ends the operation (R12, R186). -/
def Res.bind {α β : Type} (r : Res α) (f : α → Res β) : Res β :=
  match r with
  | .ok a => f a
  | .error e => .error e
  | .miss m => .miss m
  | .refused x => .refused x

/-- The same result with the value of `Ok` put into its form for the host. -/
def Res.map {α β : Type} (f : α → β) (r : Res α) : Res β := r.bind (fun a => .ok (f a))

/-- The 4-bit code of an error on a result port (R178). -/
def Err.code : Err → BitVec 4
  | .checksumMismatch => 0x1
  | .malformedFrame => 0x2
  | .unknownCommand => 0x3
  | .unknownDeviceEvent => 0x4
  | .notImplemented => 0x5
  | .unexpectedResponse => 0x6
  | .protocolMismatch => 0x7
  | .invalidWriteSpan => 0x8
  | .deviceOff => 0x9
  | .outOfRange => 0xa
  | .notAMultiple => 0xb
  | .inconsistent => 0xc
  | .transportError _ => 0xd

/-- Hand a result to the host. This is all that returning `Error`, `Miss` or `Refused` does: "nothing is saved ... no
mode changes, control goes nowhere: the result is handed to the host and the block is ready for the next operation"
(R186). There is no handler and so no return from one (R189). -/
def State.post (s : State) (r : Result) : State := { s with results := s.results ++ [r] }

/-- End the host sequence in flight, if any, with a result (R171, R177). -/
def State.finish (s : State) (r : Result) : State := { s with inflight := none, results := s.results ++ [r] }

/-! ## The mirror -/

/-- The value of entry `a` if it is valid (R14); an unlisted address has no value (log 14). -/
def mirrorGet : List Host.Cell → Nat → Option Byte
  | [], _ => none
  | (b, v) :: m, a => if b = a then some v else mirrorGet m a

/-- R12, `x[a] <- v`: the entry becomes valid with the value. Keeps the addresses strictly rising. -/
def mirrorSet : List Host.Cell → Nat → Byte → List Host.Cell
  | [], a, v => [(a, v)]
  | (b, w) :: m, a, v =>
    if a < b then (a, v) :: (b, w) :: m
    else if a = b then (a, v) :: m
    else (b, w) :: mirrorSet m a v

/-- Merge entries in order (R142, R144). -/
def mirrorMerge (m : List Host.Cell) (cells : List Host.Cell) : List Host.Cell :=
  cells.foldl (fun m c => mirrorSet m c.1 c.2) m

/-- The entries `start+j, data[j]` (R36, R142). -/
def windowCells : Nat → Bytes → List Host.Cell
  | _, [] => []
  | a, v :: r => (a, v) :: windowCells (a + 1) r

/-- The entries of a write map (R144). -/
def mapCells (w : ByteMap) : List Host.Cell := w.map (fun e => (e.1.toNat, e.2))

/-- Every address of the list is above `lo`. -/
def risingFrom : Nat → List Host.Cell → Bool
  | _, [] => true
  | lo, (a, _) :: m => decide (lo ≤ a) && risingFrom (a + 1) m

/-- The canonical form: addresses strictly rising and below 256 (R14). No entry reads as an unlisted address does, since
an unlisted address has no value. -/
def mirrorWf (m : List Host.Cell) : Bool :=
  risingFrom 0 m && m.all (fun c => decide (c.1 < Config.mirrorDepth))

/-- R12, `x[a]`: the value, or `Miss(a)`. -/
def readEntry (m : List Host.Cell) (a : Byte) : Res Byte :=
  match mirrorGet m a.toNat with
  | some v => .ok v
  | none => .miss (.entry a)

/-! ## The transport -/

/-- `write(F)`, then suspend in `read()` with the sequence `k` in flight (R155, R157). A `TransportError` of the write
ends the sequence (R171). -/
def State.send (s : State) (F : Bytes) (k : HostSeq) : State :=
  match s.writes with
  | [] => { s with tx := s.tx ++ [F], inflight := some k }
  | .accepts :: r => { s with writes := r, tx := s.tx ++ [F], inflight := some k }
  | .fails info :: r => { s with writes := r }.finish (.error (.transportError info))

/-- Nobody reads: what the environment delivers stays in the transport (60_exceptions R183, U20). -/
def State.enqueue (s : State) (x : RxItem) : State := { s with rxq := s.rxq ++ [x] }

/-- The transport will answer one more write with `a`, after those already known (R155; log 10). -/
def State.expect (s : State) (a : WriteAnswer) : State := { s with writes := s.writes ++ [a] }

/-- R197 to R199: reset clears the block and abandons the sequence in flight; it touches neither the tables, nor the
transport, nor what the host has recorded (log 12). -/
def State.applyReset (s : State) : State := { s with mirror := [], prof := none, inflight := none }

end Sys2Proof.Machine
end

