-- ==== Sys2Proof/Machine/Reserved.lean ====
section
/-! DEFINITION. The reserved operation selects 0x1c to 0x1f (spec/30_encoding.md R71): the block returns
`Refused(BadOp)` and changes no state. -/

namespace Sys2Proof.Machine

/-- R71: what each reserved select does. -/
def refuseBadOp (s : State) : State := s.post (.refused .badOp)

/-- Select 0x1c (R71). -/
def execReserved1c (s : State) : Outcome := .next (refuseBadOp s)

/-- Select 0x1d (R71). -/
def execReserved1d (s : State) : Outcome := .next (refuseBadOp s)

/-- Select 0x1e (R71). -/
def execReserved1e (s : State) : Outcome := .next (refuseBadOp s)

/-- Select 0x1f (R71). -/
def execReserved1f (s : State) : Outcome := .next (refuseBadOp s)

end Sys2Proof.Machine
end

