-- ==== Sys2Proof/Machine/Dpi.lean ====
section
/-! DEFINITION. The DPI converter (spec/43_dpi.md). -/

namespace Sys2Proof.Machine

/-- The packed third byte: the factor in bits 3:2 and again in bits 7:6 (R118). -/
def packFactor (f : Nat) : Byte := BitVec.ofNat 8 (((f <<< 2) ||| (f <<< 6)) &&& 0xff)

/-- `DPI_ENC` (R119): range before divisibility. -/
def dpiEnc (dpi : BitVec 32) : Res Bytes :=
  if dpi.toNat < Config.dpiMin ∨ dpi.toNat > Config.dpiMax then .error .outOfRange
  else if dpi.toNat % Config.dpiStep ≠ 0 then .error .notAMultiple
  else
    let q := dpi.toNat / Config.dpiStep - 1
    .ok [BitVec.ofNat 8 (q % 256), BitVec.ofNat 8 (q % 256), packFactor (q / 256)]

/-- `DPI_DEC` (R120): three tests, then `f50*50 + f*12800`. -/
def dpiDec (raw0 raw1 raw2 : Byte) : Res (BitVec 32) :=
  let n1 := raw2.toNat % 16
  let n2 := raw2.toNat / 16
  if raw0 ≠ raw1 then .error .inconsistent
  else if n1 ≠ n2 then .error .inconsistent
  else if n1 ≠ (n1 &&& 0b1100) then .error .inconsistent
  else .ok (BitVec.ofNat 32 ((raw1.toNat + 1) * 50 + (n1 >>> 2) * 12800))

/-- `DPI_ENC` (R119). -/
def execDpiEnc (dpi : BitVec 32) (s : State) : Outcome := .next (s.post ((dpiEnc dpi).map .bytes))

/-- `DPI_DEC` (R120). -/
def execDpiDec (raw0 raw1 raw2 : Byte) (s : State) : Outcome := .next (s.post ((dpiDec raw0 raw1 raw2).map .dpi))

end Sys2Proof.Machine
end

