-- ==== Sys2Proof/Machine/Flags.lean ====
section
/-! DEFINITION. The valid bits, "the only flags the block has" (spec/10_state.md R16). There is no carry, zero, overflow
or condition flag. -/

namespace Sys2Proof.Machine

/-- `M.vld[a]` (R14). -/
def valid (s : State) (a : Byte) : Bool := (mirrorGet s.mirror a.toNat).isSome

/-- `PROF.vld` (R17). -/
def profValid (s : State) : Bool := s.prof.isSome

/-- `M.vld[a] = 0` for all `a` in 0..=255 (45_mirror R141). -/
def allInvalid (s : State) : Bool :=
  (List.range Config.mirrorDepth).all (fun a => (mirrorGet s.mirror a).isNone)

end Sys2Proof.Machine
end

