-- ==== Sys2Proof/Machine/Checksum.lean ====
section
/-! DEFINITION. The checksum unit (spec/40_checksum.md). -/

namespace Sys2Proof.Machine

/-- R10: the unbounded integer sum of the bytes. -/
def byteSum : Bytes → Int
  | [] => 0
  | b :: s => b.toNat + byteSum s

/-- R76: `(0x55 - sum(s)) mod 256`, also of the empty sequence. -/
def ck (s : Bytes) : Byte := BitVec.ofInt 8 (Config.ckSeed - byteSum s)

/-- `CKSUM` (R77). -/
def execCksum (bs : Bytes) (s : State) : Outcome := .next (s.post (.ok (.byte (ck bs))))

end Sys2Proof.Machine
end

