-- ==== Sys2Proof/Machine/AddressMap.lean ====
section
/-! DEFINITION. The address-map lookup engine (spec/44_address_map.md). -/

namespace Sys2Proof.Machine

/-- `ADDR_MAP[n]` (R126). -/
def addrOf (t : Config.Tables) (f : ScalarField) : Config.FieldAddr := t.scalars.getD (fieldIndex f) ⟨0, 0⟩

/-- `MODE_ADDR(m, j)` (R129). -/
def modeAddr (t : Config.Tables) (m j : Nat) : Byte := BitVec.ofNat 8 (t.modeAddrNat m j)

/-- `BTN_ADDR[s][i]` (R131). -/
def btnAddr (t : Config.Tables) (s i : Nat) : Byte := (t.buttons.getD s []).getD i 0

/-- A name input wider than the enumeration: `Refused(BadName)` for a byte that names no field (R132; log 19). -/
def fieldNamed (name : Byte) : Res ScalarField :=
  match fieldOf name with
  | some f => .ok f
  | none => .refused .badName

/-- R132. -/
def mapLookup (t : Config.Tables) (name : Byte) : Res Config.FieldAddr :=
  (fieldNamed name).map (addrOf t)

/-- R130. -/
def modeLookup (t : Config.Tables) (m j : Byte) : Res Byte :=
  if m.toNat > 3 then .refused .badMode
  else if j.toNat > 7 then .refused .badSlot
  else .ok (modeAddr t m.toNat j.toNat)

/-- R131. -/
def btnLookup (t : Config.Tables) (s i : Byte) : Res Byte :=
  if s.toNat > 4 then .refused .badSlot
  else if i.toNat > 2 then .refused .badIndex
  else .ok (btnAddr t s.toNat i.toNat)

/-- R133, scalar: `{a: v, c: ck([v])}`. -/
def scalarPair (t : Config.Tables) (f : ScalarField) (v : Byte) : ByteMap :=
  [((addrOf t f).addr, v), ((addrOf t f).cks, ck [v])]

/-- R133, triple. -/
def triplePair (t : Config.Tables) (m : Byte) (g : Group) (b0 b1 b2 : Byte) : Res ByteMap :=
  if m.toNat > 3 then .refused .badMode
  else .ok [(modeAddr t m.toNat (groupSlot g), b0), (modeAddr t m.toNat (groupSlot g + 1), b1),
    (modeAddr t m.toNat (groupSlot g + 2), b2), (modeAddr t m.toNat (groupSlot g + 3), ck [b0, b1, b2])]

/-- R133. -/
def fieldPair (t : Config.Tables) : PairOperand → Res ByteMap
  | .scalar name v => (fieldNamed name).map (fun f => scalarPair t f v)
  | .triple m g b0 b1 b2 => triplePair t m g b0 b1 b2

/-- `MAP_LOOKUP` (R132). -/
def execMapLookup (name : Byte) (s : State) : Outcome :=
  .next (s.post ((mapLookup s.cfg.val name).map (fun p => .addrPair p.addr p.cks)))

/-- `MODE_LOOKUP` (R130). -/
def execModeLookup (m j : Byte) (s : State) : Outcome := .next (s.post ((modeLookup s.cfg.val m j).map .byte))

/-- `BTN_LOOKUP` (R131). -/
def execBtnLookup (slot i : Byte) (s : State) : Outcome := .next (s.post ((btnLookup s.cfg.val slot i).map .byte))

/-- `FIELD_PAIR` (R133). -/
def execFieldPair (o : PairOperand) (s : State) : Outcome := .next (s.post ((fieldPair s.cfg.val o).map .map))

end Sys2Proof.Machine
end

