-- ==== Sys2Proof/Machine/Mirror.lean ====
section
/-! DEFINITION. The mirror, the span checker and the field reader (spec/45_mirror.md R139 to R149). -/

namespace Sys2Proof.Machine

/-- The keys of `W` are `lo, lo+1, .., lo+n-1` with `n = |W|` (R143): every one of these is a key, and there are only `n`. -/
def contiguousFrom (w : ByteMap) (lo : Nat) : Bool :=
  (List.range w.length).all (fun j => w.any (fun e => e.1.toNat == lo + j))

/-- `SPAN_CHECK` (R143): `(start, length)`, or `InvalidWriteSpan`. -/
def spanCheck (w : ByteMap) : Res (Byte × Nat) :=
  if w.length < 1 ∨ w.length > Config.maxXfer then .error .invalidWriteSpan
  else if contiguousFrom w (minKey w) then .ok (BitVec.ofNat 8 (minKey w), w.length)
  else .error .invalidWriteSpan

/-- `MIR_FILL` (R142): the mirror after merging a window. -/
def mirFill (m : List Host.Cell) (start : Byte) (data : Bytes) : Res (List Host.Cell) :=
  if data.length < 1 ∨ data.length > Config.maxXfer then .refused .badLength
  else if start.toNat + data.length > Config.mirrorDepth then .refused .addressOverflow
  else .ok (mirrorMerge m (windowCells start.toNat data))

/-- `MIR_WR` (R144): the mirror after merging a write map. -/
def mirWr (m : List Host.Cell) (w : ByteMap) : Res (List Host.Cell) :=
  (spanCheck w).bind (fun _ => .ok (mirrorMerge m (mapCells w)))

/-- R147, scalar. -/
def readScalar (t : Config.Tables) (m : List Host.Cell) (f : ScalarField) : Res Byte :=
  (readEntry m (addrOf t f).addr).bind fun v =>
  (readEntry m (addrOf t f).cks).bind fun k =>
  if k ≠ ck [v] then .error .checksumMismatch else .ok v

/-- R147, triple. -/
def readTriple (t : Config.Tables) (m : List Host.Cell) (mode : Byte) (g : Group) : Res Bytes :=
  if mode.toNat > 3 then .refused .badMode
  else
    (readEntry m (modeAddr t mode.toNat (groupSlot g))).bind fun b0 =>
    (readEntry m (modeAddr t mode.toNat (groupSlot g + 1))).bind fun b1 =>
    (readEntry m (modeAddr t mode.toNat (groupSlot g + 2))).bind fun b2 =>
    (readEntry m (modeAddr t mode.toNat (groupSlot g + 3))).bind fun k =>
    if k ≠ ck [b0, b1, b2] then .error .checksumMismatch else .ok [b0, b1, b2]

/-- R147. -/
def fieldRd (t : Config.Tables) (m : List Host.Cell) : FieldOperand → Result
  | .scalar name => (fieldNamed name).bind (fun f => (readScalar t m f).map .byte)
  | .triple mode g => (readTriple t m mode g).map .bytes

/-- Put a new mirror in place and report `Ok(())`, or report the failure and write nothing (R186). -/
def State.merged (s : State) : Res (List Host.Cell) → State
  | .ok m => { s with mirror := m }.post (.ok .unit)
  | .error e => s.post (.error e)
  | .miss a => s.post (.miss a)
  | .refused r => s.post (.refused r)

/-- `SPAN_CHECK` (R143). -/
def execSpanCheck (w : ByteMap) (s : State) : Outcome :=
  .next (s.post ((spanCheck w).map (fun p => .span p.1 p.2)))

/-- `MIR_RD` (R140). -/
def execMirRd (a : Byte) (s : State) : Outcome := .next (s.post ((readEntry s.mirror a).map .byte))

/-- `MIR_EMPTY` (R141). -/
def execMirEmpty (s : State) : Outcome := .next (s.post (.ok (.flag (allInvalid s))))

/-- `MIR_FILL` (R142). -/
def execMirFill (start : Byte) (data : Bytes) (s : State) : Outcome := .next (s.merged (mirFill s.mirror start data))

/-- `MIR_WR` (R144). -/
def execMirWr (w : ByteMap) (s : State) : Outcome := .next (s.merged (mirWr s.mirror w))

/-- `MIR_CLR` (R145). -/
def execMirClr (s : State) : Outcome := .next (s.merged (.ok []))

/-- `FIELD_RD` (R147). -/
def execFieldRd (o : FieldOperand) (s : State) : Outcome := .next (s.post (fieldRd s.cfg.val s.mirror o))

end Sys2Proof.Machine
end

