-- ==== Sys2Proof/Machine/FrameBuild.lean ====
section
/-! DEFINITION. The frame builder and serializer (spec/41_frame_build.md). -/

namespace Sys2Proof.Machine

/-- Header, command, parameters, and the checksum of these sixteen bytes (R52, R78, R83). -/
def makeFrame (command : Byte) (params : Bytes) : Bytes :=
  frameBytes command params (ck (Config.header :: command :: params))

/-- R83: `P[k] := A[k] if k in A else 0x00`. -/
def assigned (a : ByteMap) : Bytes :=
  (List.range Config.nParam).map (fun k => (lookupKey a (BitVec.ofNat 8 k)).getD 0)

/-- `BUILD` (R83). -/
def build (command : Byte) (a : ByteMap) : Res Bytes :=
  if isCommand command then
    if a.any (fun e => decide (e.1.toNat > 13)) then .refused .badParamIndex
    else .ok (makeFrame command (assigned a))
  else .refused .badCommand

/-- `SERIALIZE` (R84): each variant by its rule, R86 to R92. -/
def serialize (t : Config.Tables) : Payload → Res Bytes
  | .restore => build 0x09 []
  | .requestActiveProfile => build 0x0e []
  | .currentActiveProfile p => build 0x0e [(3, t.capP3), (4, p)]
  | .setActiveProfile p => build 0x0f [(3, 0x01), (4, p)]
  | .deviceEvent e => build 0x0a [(4, kindByte t e)]
  | .requestPowerDetails => build 0x04 []
  | .powerDetails b c m => build 0x04 [(4, b), (5, ofFlag c), (6, hi16 m), (7, lo16 m)]

/-- `STATUS_BUILD` (R93). -/
def statusBuild : Res Bytes := build 0x03 []

/-- The length and address tests of a window operand (R94, R110, R38). -/
def windowTest (start : Byte) (length : Nat) : Res Unit :=
  if length < 1 ∨ length > Config.maxXfer then .refused .badLength
  else if start.toNat + length > Config.mirrorDepth then .refused .addressOverflow
  else .ok ()

/-- `MEMGET_BUILD` (R94); `length` is any unsigned integer (R10). -/
def memgetBuild (start : Byte) (length : Nat) : Res Bytes :=
  (windowTest start length).bind fun _ => build 0x08 [(2, start), (3, BitVec.ofNat 8 length)]

/-- R95: `{2: start, 3: length} ∪ {4+j: W[start+j] for j in 0..length}`. -/
def memsetAssignment (w : ByteMap) (start : Byte) (length : Nat) : ByteMap :=
  (2, start) :: (3, BitVec.ofNat 8 length)
    :: (List.range length).map (fun j => (BitVec.ofNat 8 (4 + j), (lookupKey w (start + BitVec.ofNat 8 j)).getD 0))

/-- `MEMSET_BUILD` (R95). -/
def memsetBuild (w : ByteMap) : Res Bytes :=
  (spanCheck w).bind fun p => build 0x07 (memsetAssignment w p.1 p.2)

/-- `BUILD` (R83). -/
def execBuild (command : Byte) (a : ByteMap) (s : State) : Outcome := .next (s.post ((build command a).map .bytes))

/-- `SERIALIZE` (R84 to R92). -/
def execSerialize (v : Payload) (s : State) : Outcome := .next (s.post ((serialize s.cfg.val v).map .bytes))

/-- `STATUS_BUILD` (R93). -/
def execStatusBuild (s : State) : Outcome := .next (s.post (statusBuild.map .bytes))

/-- `MEMGET_BUILD` (R94). -/
def execMemgetBuild (start : Byte) (length : Nat) (s : State) : Outcome :=
  .next (s.post ((memgetBuild start length).map .bytes))

/-- `MEMSET_BUILD` (R95). -/
def execMemsetBuild (w : ByteMap) (s : State) : Outcome := .next (s.post ((memsetBuild w).map .bytes))

end Sys2Proof.Machine
end

