-- ==== Sys2Proof/Machine/FrameParse.lean ====
section
/-! DEFINITION. The frame validator, the generic parser and the raw decoders (spec/42_frame_parse.md). -/

namespace Sys2Proof.Machine

/-- `RXCHECK` (R98): length, then checksum, then header (60_exceptions R184). -/
def rxcheck (b : Bytes) : Res Bytes :=
  if b.length ≠ Config.frameLen then .error .malformedFrame
  else if byteAt b 16 ≠ ck (b.take 16) then .error .checksumMismatch
  else if byteAt b 0 ≠ Config.header then .error .malformedFrame
  else .ok b

/-- The equality test of the round-trip rule (R107, R116): `v` if its canonical frame is `F`. -/
def conforming (t : Config.Tables) (F : Bytes) (v : Payload) : Res Payload :=
  if serialize t v = .ok F then .ok v else .error .unexpectedResponse

/-- The dispatch of `PARSE` on a validated frame (R99 to R106). -/
def parseFrame (t : Config.Tables) (F : Bytes) : Res Payload :=
  if byteAt F 1 = cmdPower then
    if serialize t .requestPowerDetails = .ok F then .ok .requestPowerDetails else .ok (powerDetailsOf F)
  else if byteAt F 1 = cmdRestore then conforming t F .restore
  else if byteAt F 1 = cmdDeviceEvent then
    match kindOf t (byteAt F 6) with
    | some e => .ok (.deviceEvent e)
    | none => .error .unknownDeviceEvent
  else if byteAt F 1 = cmdProfileSet then conforming t F (.setActiveProfile (byteAt F 6))
  else if byteAt F 1 = cmdProfileGet then
    if serialize t .requestActiveProfile = .ok F then .ok .requestActiveProfile
    else conforming t F (.currentActiveProfile (byteAt F 6))
  else if byteAt F 1 = cmdStatus ∨ byteAt F 1 = cmdMemSet ∨ byteAt F 1 = cmdMemGet then .error .notImplemented
  else .error .unknownCommand

/-- `PARSE` (R99). -/
def parse (t : Config.Tables) (b : Bytes) : Res Payload := (rxcheck b).bind (parseFrame t)

/-- A raw decoder's validation: the frame, or `Refused(WrongCommand)` (R108 to R111). -/
def rawFrame (command : Byte) (b : Bytes) : Res Bytes :=
  (rxcheck b).bind fun F => if byteAt F 1 ≠ command then .refused .wrongCommand else .ok F

/-- `STATUS_DEC` (R108). -/
def statusDec (b : Bytes) : Res Bool := (rawFrame cmdStatus b).map (fun F => isTrue (byteAt F 6))

/-- `POWER_DEC` (R109). -/
def powerDec (b : Bytes) : Res Payload := (rawFrame cmdPower b).map powerDetailsOf

/-- `MEMGET_DEC` (R110): validation first (R114, 60_exceptions R185), then the window operands, then the command byte,
then the echo (log 18). -/
def memgetDec (b : Bytes) (start : Byte) (length : Nat) : Res Bytes :=
  (rxcheck b).bind fun F =>
  (windowTest start length).bind fun _ =>
  if byteAt F 1 ≠ cmdMemGet then .refused .wrongCommand
  else if byteAt F 4 ≠ start ∨ (byteAt F 5).toNat ≠ length then .error .protocolMismatch
  else .ok (dataOf F length)

/-- `MEMSET_ACK` (R111). -/
def memsetAck (b : Bytes) : Res Unit := (rawFrame cmdMemSet b).map (fun _ => ())

/-- `RXCHECK` (R98). -/
def execRxcheck (b : Bytes) (s : State) : Outcome := .next (s.post ((rxcheck b).map .bytes))

/-- `PARSE` (R99). -/
def execParse (b : Bytes) (s : State) : Outcome := .next (s.post ((parse s.cfg.val b).map .payload))

/-- `STATUS_DEC` (R108). -/
def execStatusDec (b : Bytes) (s : State) : Outcome := .next (s.post ((statusDec b).map .flag))

/-- `POWER_DEC` (R109). -/
def execPowerDec (b : Bytes) (s : State) : Outcome := .next (s.post ((powerDec b).map .payload))

/-- `MEMGET_DEC` (R110). -/
def execMemgetDec (b : Bytes) (start : Byte) (length : Nat) (s : State) : Outcome :=
  .next (s.post ((memgetDec b start length).map .bytes))

/-- `MEMSET_ACK` (R111). -/
def execMemsetAck (b : Bytes) (s : State) : Outcome := .next (s.post ((memsetAck b).map (fun _ => .unit)))

end Sys2Proof.Machine
end

