-- ==== Sys2Proof/Machine/Profile.lean ====
section
/-! DEFINITION. The profile cache (spec/45_mirror.md R150 to R152). -/

namespace Sys2Proof.Machine

/-- R150: the cached profile, or `Miss(PROF)`. -/
def profRd (s : State) : Res Byte :=
  match s.prof with
  | some p => .ok p
  | none => .miss .prof

/-- R151. -/
def State.cacheProfile (s : State) (p : Byte) : State := { s with prof := some p }

/-- R152. -/
def State.clearProfile (s : State) : State := { s with prof := none }

/-- `PROF_RD` (R150). -/
def execProfRd (s : State) : Outcome := .next (s.post ((profRd s).map .byte))

/-- `PROF_WR` (R151). -/
def execProfWr (p : Byte) (s : State) : Outcome := .next ((s.cacheProfile p).post (.ok .unit))

/-- `PROF_CLR` (R152). -/
def execProfClr (s : State) : Outcome := .next (s.clearProfile.post (.ok .unit))

end Sys2Proof.Machine
end

