-- ==== Sys2Proof/Machine/Sequences.lean ====
section
/-! DEFINITION. The host sequences (spec/46_host_sequences.md): how a sequence starts, and how it goes on when `read()`
returns. A sequence runs from one suspension in `read()` to the next as one step (log 8). -/

namespace Sys2Proof.Machine

/-- "An `Error` result of any block operation or transport call inside a sequence ends the sequence with that error"
(R171); a `Miss` or `Refused` that the sequence does not handle ends it too (60_exceptions R177). -/
def State.orFinish {α : Type} (s : State) (r : Res α) (go : α → State) : State :=
  match r with
  | .ok a => go a
  | .error e => s.finish (.error e)
  | .miss m => s.finish (.miss m)
  | .refused x => s.finish (.refused x)

/-! ## Starting a sequence: up to its first `read()` -/

/-- `is_on` (R160). -/
def startIsOn (s : State) : State := s.orFinish statusBuild fun F => s.send F .isOn

/-- `get_power` (R161). -/
def startGetPower (s : State) : State :=
  s.orFinish (serialize s.cfg.val .requestPowerDetails) fun F => s.send F .getPower

/-- `MemRead(addr, n)` (R163). -/
def startMemRead (start : Byte) (length : Nat) (s : State) : State :=
  s.orFinish (memgetBuild start length) fun F => s.send F (.memRead start length)

/-- The raw DPI triple of a mode, decoded (R169). -/
def readDpi (s : State) (mode : Byte) : Result :=
  (readTriple s.cfg.val s.mirror mode .dpi).bind fun raw =>
  (dpiDec (byteAt raw 0) (byteAt raw 1) (byteAt raw 2)).map .dpi

/-- The read of a getter on the mirror as it stands (R164, R169, R173). -/
def getterResult (s : State) : AfterScan → Result
  | .nothing => .ok .unit
  | .getField f => (readScalar s.cfg.val s.mirror f).map .byte
  | .getDpi m => readDpi s m
  | .getLed m => (readTriple s.cfg.val s.mirror m .led).map .bytes

/-- The next window of `read_settings` (R162); after the last, the getter that asked for the scan is repeated once, and
its result is the sequence's, a second `Miss` too (R164). -/
def nextWindow (windows : Bytes) (after : AfterScan) (s : State) : State :=
  match windows with
  | [] => s.finish (getterResult s after)
  | a :: rest => s.orFinish (memgetBuild a Config.scanStep) fun F => s.send F (.scan a rest after)

/-- `read_settings` (R162). -/
def startScan (after : AfterScan) (s : State) : State := nextWindow Config.scanStarts after s

/-- A typed getter with the lazy fill of R164: only a `Miss` starts a scan. -/
def startGetter (g : AfterScan) (s : State) : State :=
  match getterResult s g with
  | .miss _ => startScan g s
  | r => s.finish r

/-- `_mem_set(W)` (R165): the span check, then the STATUS exchange. -/
def startMemSet (w : ByteMap) (s : State) : State :=
  s.orFinish (spanCheck w) fun _ =>
  s.orFinish statusBuild fun F => s.send F (.memSetStatus w)

/-- `MemWrite(start, length, values)` (R165). A window past 0xff has no write map, and an address never wraps (20_memory
R38): `Refused(AddressOverflow)` (log 20). -/
def startMemWrite (start : Byte) (values : Bytes) (s : State) : State :=
  if start.toNat + values.length > Config.mirrorDepth then s.finish (.refused .addressOverflow)
  else startMemSet (windowMap start values) s

/-- R172: the value is in the field's legal set. -/
def legalValue (t : Config.Tables) (f : ScalarField) (v : Byte) : Bool :=
  (t.setterDomain.getD (fieldIndex f) []).contains v

/-- A scalar setter (R166, R172): the domain check, the pair, `_mem_set`. -/
def startSetField (f : SettableField) (v : Byte) (s : State) : State :=
  if legalValue s.cfg.val (settable f) v then startMemSet (scalarPair s.cfg.val (settable f) v) s
  else s.finish (.error .outOfRange)

/-- Set the DPI of a mode (R169). -/
def startSetDpi (mode : Byte) (dpi : BitVec 32) (s : State) : State :=
  s.orFinish (dpiEnc dpi) fun raw =>
  s.orFinish (triplePair s.cfg.val mode .dpi (byteAt raw 0) (byteAt raw 1) (byteAt raw 2)) fun w => startMemSet w s

/-- Set the LED colour of a mode (R169), a colour outside the setter's domain refused first (R172; log 15). -/
def startSetLed (mode r g b : Byte) (s : State) : State :=
  if s.cfg.val.ledExcluded.contains [r, g, b] then s.finish (.error .outOfRange)
  else s.orFinish (triplePair s.cfg.val mode .led r g b) fun w => startMemSet w s

/-- The exchange of the `profile` getter (R167). -/
def requestProfile (s : State) : State :=
  s.orFinish (serialize s.cfg.val .requestActiveProfile) fun F => s.send F .getProfile

/-- The `profile` getter (R167): the cache, else the exchange. -/
def startGetProfile (s : State) : State :=
  match profRd s with
  | .ok p => s.finish (.ok (.byte p))
  | _ => requestProfile s

/-- The `profile` setter (R168). -/
def startSetProfile (p : Byte) (s : State) : State :=
  s.orFinish (serialize s.cfg.val (.setActiveProfile p)) fun F => s.send F (.setProfile p)

/-- `restore` (R170). -/
def startRestore (s : State) : State :=
  s.orFinish (serialize s.cfg.val .restore) fun F => s.send F .restore

/-- Start a host sequence. -/
def startCall : HostCall → State → State
  | .isOn, s => startIsOn s
  | .getPower, s => startGetPower s
  | .readSettings, s => startScan .nothing s
  | .memRead start length, s => startMemRead start length s
  | .memSet w, s => startMemSet w s
  | .memWrite start values, s => startMemWrite start values s
  | .setField f v, s => startSetField f v s
  | .getField f, s => startGetter (.getField f) s
  | .getProfile, s => startGetProfile s
  | .setProfile p, s => startSetProfile p s
  | .setDpi m d, s => startSetDpi m d s
  | .getDpi m, s => startGetter (.getDpi m) s
  | .setLed m r g b, s => startSetLed m r g b s
  | .getLed m, s => startGetter (.getLed m) s
  | .restore, s => startRestore s

/-! ## Going on when `read()` has returned -/

/-- One turn of `await_cmd(c)` (R158): a byte string that fails `RXCHECK` ends the sequence (R156); a frame of another
command is discarded, the sequence still in flight; a frame of command `c` is the reply. -/
def awaitCmd (c : Byte) (b : Bytes) (s : State) (go : Bytes → State) : State :=
  s.orFinish (rxcheck b) fun F => if byteAt F 1 = c then go F else s

/-- The write of `_mem_set` (R165 steps 2 and 3): only if the device reports on. -/
def writeIfOn (w : ByteMap) (on : Bool) (s : State) : State :=
  if on then s.orFinish (memsetBuild w) fun F => s.send F (.memSetAck w)
  else s.finish (.error .deviceOff)

/-- `read()` returns the byte string `b` to the sequence `k` in flight (R158 to R170). -/
def receive (k : HostSeq) (b : Bytes) (s : State) : State :=
  match k with
  | .isOn => awaitCmd cmdStatus b s fun F => s.finish ((statusDec F).map .flag)
  | .getPower => awaitCmd cmdPower b s fun F => s.finish ((powerDec F).map .payload)
  | .memRead start length => awaitCmd cmdMemGet b s fun F => s.finish ((memgetDec F start length).map .bytes)
  | .scan start rest after => awaitCmd cmdMemGet b s fun F =>
      s.orFinish (memgetDec F start Config.scanStep) fun d =>
      s.orFinish (mirFill s.mirror start d) fun m => nextWindow rest after { s with mirror := m }
  | .memSetStatus w => awaitCmd cmdStatus b s fun F => s.orFinish (statusDec F) fun on => writeIfOn w on s
  | .memSetAck w => awaitCmd cmdMemSet b s fun F =>
      s.orFinish (memsetAck F) fun _ =>
      s.orFinish (mirWr s.mirror w) fun m => { s with mirror := m }.finish (.ok .unit)
  | .getProfile => s.orFinish (parse s.cfg.val b) fun v =>
      match v with
      | .currentActiveProfile p => (s.cacheProfile p).finish (.ok (.byte p))
      | _ => s
  | .setProfile p => s.orFinish (parse s.cfg.val b) fun v =>
      match v with
      | .setActiveProfile q =>
        if q ≠ p then s.finish (.error .unexpectedResponse) else (s.cacheProfile p).finish (.ok .unit)
      | _ => s
  | .restore => s.orFinish (rxcheck b) fun F =>
      if serialize s.cfg.val .restore = .ok F then { s with mirror := [] }.clearProfile.finish (.ok .unit)
      else s.finish (.error .unexpectedResponse)

/-- A byte string arrives: `read()` returns it if a sequence is suspended there, else it stays in the transport (R183). -/
def deliver (b : Bytes) (s : State) : State :=
  match s.inflight with
  | some k => receive k b s
  | none => s.enqueue (.bytes b)

/-- A `TransportError` arrives: it ends a sequence suspended in `read()` (R155, R171), else it waits for the next read. -/
def deliverFailure (info : Bytes) (s : State) : State :=
  match s.inflight with
  | some _ => s.finish (.error (.transportError info))
  | none => s.enqueue (.fails info)

end Sys2Proof.Machine
end

