-- ==== Sys2Proof/Machine/Wire.lean ====
section
/-! DEFINITION. The meanings of the thirteen wire frame forms (spec/30_encoding.md R57 to R64). Nothing in a frame says
which direction it travels (R55), so the state decides (log 5): while a sequence is suspended in `read()` the frame is
what `read()` returns; otherwise a request form is sent by the host, with the exchange that sends it, and a response form
stays in the transport, since nobody reads. -/

namespace Sys2Proof.Machine

/-- A request form: received by the sequence in flight (R68, R210), or, once its checksum has been checked (R98; log 7),
issued by the host as the sequence `start`. -/
def receiveOrIssue (F : Bytes) (start : State → State) (s : State) : State :=
  match s.inflight with
  | some k => receive k F s
  | none => s.orFinish (rxcheck F) fun _ => start s

/-- STATUS request (R62, R93): the exchange of `is_on` (46 R160). -/
def execStatusReq (s : State) : Outcome := .next (receiveOrIssue (frameBytes cmdStatus zeroParams 0x4a) startIsOn s)

/-- STATUS response (R62, R108). -/
def execStatusRsp (params : Bytes) (ck : Byte) (s : State) : Outcome := .next (deliver (frameBytes cmdStatus params ck) s)

/-- POWER request (R61, R91): the exchange of `get_power` (46 R161). -/
def execPowerReq (s : State) : Outcome := .next (receiveOrIssue (frameBytes cmdPower zeroParams 0x49) startGetPower s)

/-- POWER response (R61, R100, R109). -/
def execPowerRsp (params : Bytes) (ck : Byte) (s : State) : Outcome := .next (deliver (frameBytes cmdPower params ck) s)

/-- The `MemWrite` of a MEM_SET request's window (46 R165). A length above ten has more entries than a write map may
have: `InvalidWriteSpan`, like a length of zero (45_mirror R143; log 6). -/
def issueMemSet (start length : Byte) (data : Bytes) (s : State) : State :=
  if length.toNat > Config.maxXfer then s.finish (.error .invalidWriteSpan)
  else startMemWrite start (data.take length.toNat) s

/-- MEM_SET request (R58, R95): issued, it is a `MemWrite`, since `_mem_set` "is the sole write path" (46 R165). -/
def execMemSetReq (start length : Byte) (data : Bytes) (ck : Byte) (s : State) : Outcome :=
  .next (receiveOrIssue (frameBytes cmdMemSet (memSetParams start length data) ck) (issueMemSet start length data) s)

/-- MEM_SET response (R58, R111). -/
def execMemSetRsp (params : Bytes) (ck : Byte) (s : State) : Outcome := .next (deliver (frameBytes cmdMemSet params ck) s)

/-- MEM_GET request (R58, R94): the exchange of `MemRead` (46 R163). -/
def execMemGetReq (start length ck : Byte) (s : State) : Outcome :=
  .next (receiveOrIssue (frameBytes cmdMemGet (memGetParams start length) ck) (startMemRead start length.toNat) s)

/-- MEM_GET response (R58, R110). -/
def execMemGetRsp (params : Bytes) (ck : Byte) (s : State) : Outcome := .next (deliver (frameBytes cmdMemGet params ck) s)

/-- RESTORE, the request and its echo (R64, R101): issued, the sequence `restore` (46 R170). -/
def execRestore (s : State) : Outcome := .next (receiveOrIssue (frameBytes cmdRestore zeroParams 0x44) startRestore s)

/-- DEVICE_EVENT, unsolicited (R63, R102; 60_exceptions R183). -/
def execDeviceEvent (params : Bytes) (ck : Byte) (s : State) : Outcome :=
  .next (deliver (frameBytes cmdDeviceEvent params ck) s)

/-- ACTIVE_PROFILE_GET request (R60, R104): the exchange of the `profile` getter (46 R167). -/
def execActiveProfileGetReq (s : State) : Outcome :=
  .next (receiveOrIssue (frameBytes cmdProfileGet zeroParams 0x3f) requestProfile s)

/-- ACTIVE_PROFILE_GET response (R60, R104); `F[5]` is the parameter `CAP_P3` (R8). -/
def execActiveProfileGetRsp (p ck : Byte) (s : State) : Outcome :=
  .next (deliver (frameBytes cmdProfileGet (profileParams s.cfg.val.capP3 p) ck) s)

/-- ACTIVE_PROFILE_SET, the request and its echo (R59, R103): issued, the `profile` setter (46 R168). -/
def execActiveProfileSet (p ck : Byte) (s : State) : Outcome :=
  .next (receiveOrIssue (frameBytes cmdProfileSet (profileParams 0x01 p) ck) (startSetProfile p) s)

end Sys2Proof.Machine
end

