-- ==== Sys2Proof/Machine/Dispatch.lean ====
section
/-! DEFINITION. One arm per row of spec/opcode_table.json. -/

namespace Sys2Proof.Machine

def exec (i : Instr) (s : State) : Host.Outcome State Fault Refusal :=
  match i with
  | .statusReq => Sys2Proof.Machine.execStatusReq s
  | .statusRsp params ck => Sys2Proof.Machine.execStatusRsp params ck s
  | .powerReq => Sys2Proof.Machine.execPowerReq s
  | .powerRsp params ck => Sys2Proof.Machine.execPowerRsp params ck s
  | .memSetReq start length data ck => Sys2Proof.Machine.execMemSetReq start length data ck s
  | .memSetRsp params ck => Sys2Proof.Machine.execMemSetRsp params ck s
  | .memGetReq start length ck => Sys2Proof.Machine.execMemGetReq start length ck s
  | .memGetRsp params ck => Sys2Proof.Machine.execMemGetRsp params ck s
  | .restore => Sys2Proof.Machine.execRestore s
  | .deviceEvent params ck => Sys2Proof.Machine.execDeviceEvent params ck s
  | .activeProfileGetReq => Sys2Proof.Machine.execActiveProfileGetReq s
  | .activeProfileGetRsp profile ck => Sys2Proof.Machine.execActiveProfileGetRsp profile ck s
  | .activeProfileSet profile ck => Sys2Proof.Machine.execActiveProfileSet profile ck s
  | .cksum b => Sys2Proof.Machine.execCksum b s
  | .build c a => Sys2Proof.Machine.execBuild c a s
  | .serialize v => Sys2Proof.Machine.execSerialize v s
  | .statusBuild => Sys2Proof.Machine.execStatusBuild s
  | .memgetBuild start length => Sys2Proof.Machine.execMemgetBuild start length s
  | .memsetBuild w => Sys2Proof.Machine.execMemsetBuild w s
  | .rxcheck b => Sys2Proof.Machine.execRxcheck b s
  | .parse b => Sys2Proof.Machine.execParse b s
  | .statusDec b => Sys2Proof.Machine.execStatusDec b s
  | .powerDec b => Sys2Proof.Machine.execPowerDec b s
  | .memgetDec b start length => Sys2Proof.Machine.execMemgetDec b start length s
  | .memsetAck b => Sys2Proof.Machine.execMemsetAck b s
  | .dpiEnc d => Sys2Proof.Machine.execDpiEnc d s
  | .dpiDec r0 r1 r2 => Sys2Proof.Machine.execDpiDec r0 r1 r2 s
  | .mapLookup n => Sys2Proof.Machine.execMapLookup n s
  | .modeLookup m j => Sys2Proof.Machine.execModeLookup m j s
  | .btnLookup slot idx => Sys2Proof.Machine.execBtnLookup slot idx s
  | .fieldPair o => Sys2Proof.Machine.execFieldPair o s
  | .spanCheck w => Sys2Proof.Machine.execSpanCheck w s
  | .mirRd a => Sys2Proof.Machine.execMirRd a s
  | .mirEmpty => Sys2Proof.Machine.execMirEmpty s
  | .mirFill start d => Sys2Proof.Machine.execMirFill start d s
  | .mirWr w => Sys2Proof.Machine.execMirWr w s
  | .mirClr => Sys2Proof.Machine.execMirClr s
  | .fieldRd o => Sys2Proof.Machine.execFieldRd o s
  | .profRd => Sys2Proof.Machine.execProfRd s
  | .profWr p => Sys2Proof.Machine.execProfWr p s
  | .profClr => Sys2Proof.Machine.execProfClr s
  | .reserved1c => Sys2Proof.Machine.execReserved1c s
  | .reserved1d => Sys2Proof.Machine.execReserved1d s
  | .reserved1e => Sys2Proof.Machine.execReserved1e s
  | .reserved1f => Sys2Proof.Machine.execReserved1f s

end Sys2Proof.Machine
end

