-- ==== Sys2Proof/Machine/Fetch.lean ====
section
/-! DEFINITION. What happens next: which agent moves and on what (log 8, log 11). The block has no program counter
(spec/10_state.md R18): the host issues an operation, a frame or a sequence when none is in flight, and a sequence in
flight waits in `read()` (46_host_sequences R155, R157). -/

namespace Sys2Proof.Machine

/-- What a step acts on, with the state after it has been taken from where it stood. -/
inductive Fetched
  | reset (s : State)                        -- the reset input
  | wire (F : Bytes) (s : State)             -- a frame issued by the host, or what `read()` returns
  | op (bs : Bytes) (s : State)              -- an operation word
  | call (c : HostCall) (s : State)          -- the host starts a sequence
  | unread (b : Bytes) (s : State)           -- a byte string arrives while nobody reads
  | readFails (info : Bytes) (s : State)     -- a `TransportError` of `read()`
  | answers (a : WriteAnswer) (s : State)    -- how a coming write will be answered
  | passed (s : State)                       -- nothing but the order of what follows
  | idle                                     -- nothing left to issue, or a read that nothing answers
  deriving DecidableEq, Repr

/-- The head of the port. While a sequence is in flight the host issues nothing (R157), so only what the environment
does can be taken; what then arrives is what `read()` returns. DESIGN CHOICE (log 11): the port is one list in the order
of events and only its head is looked at, so what the environment does behind an item of the host comes after that item;
while a sequence waits it does not come at all, and the sequence hangs (R203). -/
def fetchPort (s : State) : Fetched :=
  match s.port with
  | [] => .idle
  | .reset :: r => .reset { s with port := r }
  | .resetInTurn :: r => .reset { s with port := r }
  | .readFails info :: r => .readFails info { s with port := r }
  | .answers a :: r => .answers a { s with port := r }
  | .readFirst :: r => .passed { s with port := r }
  | .arrives b :: r => if s.inflight.isSome then .wire b { s with port := r } else .unread b { s with port := r }
  | .word (.wire F) :: r => if s.inflight.isSome then .idle else .wire F { s with port := r }
  | .word (.op bs) :: r => if s.inflight.isSome then .idle else .op bs { s with port := r }
  | .call c :: r => if s.inflight.isSome then .idle else .call c { s with port := r }

/-- The port after a read from `RXQ`: the item `readFirst`, which such a read comes before, is done with (log 12). -/
def portAfterRead : List PortItem → List PortItem
  | .readFirst :: r => r
  | p => p

/-- The next thing, no reset coming first: the next byte string of `RXQ` if a sequence is reading (R155), else the head
of the port. While `RXQ` feeds the sequence, every other item of the port waits (log 11). -/
def fetchNext (s : State) : Fetched :=
  match s.inflight, s.rxq with
  | some _, .bytes b :: q => .wire b { s with rxq := q, port := portAfterRead s.port }
  | some _, .fails info :: q => .readFails info { s with rxq := q, port := portAfterRead s.port }
  | _, _ => fetchPort s

/-- The byte string is a request form (30_encoding R57), which the host issues as a sequence (log 5). -/
def issuesRequest (cap : Byte) (F : Bytes) : Bool :=
  match decodeFrame cap F with
  | .ok .statusReq => true
  | .ok .powerReq => true
  | .ok (.memSetReq _ _ _ _) => true
  | .ok (.memGetReq _ _ _) => true
  | .ok .restore => true
  | .ok .activeProfileGetReq => true
  | .ok (.activeProfileSet _ _) => true
  | _ => false

/-- What is left of `s` when the sequencer's next turn has taken what it acts on (what `read()` returns, or the call the
host makes) and has neither written nor returned yet. If the next thing is no turn of a sequence it is not taken. -/
def turnTaken (s : State) : Fetched → State
  | .wire F t => if t.inflight.isSome || issuesRequest t.cfg.val.capP3 F then t else s
  | .readFails _ t => if t.inflight.isSome then t else s
  | .call _ t => t
  | .reset _ => s
  | .op _ _ => s
  | .unread _ _ => s
  | .answers _ _ => s
  | .passed _ => s
  | .idle => s

/-- The next thing: a reset "at any time between two operations" (70_reset_and_hazards R197), else `fetchNext`. A reset
inside a turn falls after the turn's read and before its write or its return; until then a turn's operations change only
`M` and `PROF`, which the reset clears, so all those moments are one. A reset that follows `readFirst` falls after one
more turn, so a reset may fall between any two turns, however much stands in `RXQ` (log 12). -/
def fetch (s : State) : Fetched :=
  match s.port with
  | .reset :: r => .reset { s with port := r }
  | .resetInTurn :: r => .reset (turnTaken { s with port := r } (fetchNext { s with port := r }))
  | _ => fetchNext s

/-- A byte string on the wire: the frame form it is (30_encoding R57), or, if it is none, a byte string that arrives. -/
def runWire (F : Bytes) (s : State) : Outcome :=
  match decodeFrame s.cfg.val.capP3 F with
  | .ok i => exec i s
  | .error _ => .next (deliver F s)

/-- An operation word: the operation it encodes (R70). A word that is no serialisation of one is refused (log 16). -/
def runOp (bs : Bytes) (s : State) : Outcome :=
  match decodeOp bs with
  | .ok i => exec i s
  | .error e => .refused (.portWord e)

/-- Run what was fetched. `s` is the state before the fetch: with nothing to do it stays as it is, since the block never
halts and a blocked read does not return (R212, R203). -/
def runFetched (s : State) : Fetched → Outcome
  | .reset t => .next t.applyReset
  | .wire F t => runWire F t
  | .op bs t => runOp bs t
  | .call c t => .next (startCall c t)
  | .unread b t => .next (t.enqueue (.bytes b))
  | .readFails info t => .next (deliverFailure info t)
  | .answers a t => .next (t.expect a)
  | .passed t => .next t
  | .idle => .next s

/-- Present a port word as the next thing: at the head of the port, with no sequence in flight. -/
def presentWord (s : State) (w : PortWord) : State := { s with inflight := none, port := .word w :: s.port }

end Sys2Proof.Machine
end

