-- ==== Sys2Proof/Machine/Step.lean ====
section
/-! DEFINITION. One step of the machine: one operation, one frame, or one turn of the host sequencer. -/

namespace Sys2Proof.Machine

/-- One step (log 8). -/
def step (s : State) : Host.Outcome State Fault Refusal := runFetched s (fetch s)

/-- The state with a word of the opcode table where the next step fetches it (log 4, log 11): at the head of the port,
no sequence in flight, so that the host issues it. -/
def State.withFetchWord (s : State) (nbits w : Nat) : State := presentWord s (tableWord nbits w)

end Sys2Proof.Machine
end

