-- ==== Sys2Proof/Safety.lean ====
section
/-! DEFINITION. What holds of a machine that runs as the spec describes, in the terms the statements use. -/

namespace Sys2Proof

/-- A valid frame (spec/30_encoding.md R53), by the sum of all seventeen bytes (40_checksum R79): the reader need not
trust the model's checksum unit. -/
abbrev ValidFrame (F : Bytes) : Prop :=
  F.length = 17 ∧ F.getD 0 0 = 0x08 ∧ (F.map BitVec.toNat).sum % 256 = 0x55

/-- The error of the first failed test of validation, in the order of 60_exceptions R184: length, checksum (as the sum of
all seventeen bytes, R79), header. -/
def validationError (b : Bytes) : Option Machine.Err :=
  if b.length ≠ 17 then some .malformedFrame
  else if (b.map BitVec.toNat).sum % 256 ≠ 0x55 then some .checksumMismatch
  else if b.getD 0 0 ≠ 0x08 then some .malformedFrame
  else none

/-- The operation select of a block operation, from the table of 30_encoding R70 and R71; none for a wire frame. -/
def opSelect : Instr → Option Byte
  | .statusReq => none
  | .statusRsp _ _ => none
  | .powerReq => none
  | .powerRsp _ _ => none
  | .memSetReq _ _ _ _ => none
  | .memSetRsp _ _ => none
  | .memGetReq _ _ _ => none
  | .memGetRsp _ _ => none
  | .restore => none
  | .deviceEvent _ _ => none
  | .activeProfileGetReq => none
  | .activeProfileGetRsp _ _ => none
  | .activeProfileSet _ _ => none
  | .cksum _ => some 0x00
  | .build _ _ => some 0x01
  | .serialize _ => some 0x02
  | .statusBuild => some 0x03
  | .memgetBuild _ _ => some 0x04
  | .memsetBuild _ => some 0x05
  | .rxcheck _ => some 0x06
  | .parse _ => some 0x07
  | .statusDec _ => some 0x08
  | .powerDec _ => some 0x09
  | .memgetDec _ _ _ => some 0x0a
  | .memsetAck _ => some 0x0b
  | .dpiEnc _ => some 0x0c
  | .dpiDec _ _ _ => some 0x0d
  | .mapLookup _ => some 0x0e
  | .modeLookup _ _ => some 0x0f
  | .btnLookup _ _ => some 0x10
  | .fieldPair _ => some 0x11
  | .spanCheck _ => some 0x12
  | .mirRd _ => some 0x13
  | .mirEmpty => some 0x14
  | .mirFill _ _ => some 0x15
  | .mirWr _ => some 0x16
  | .mirClr => some 0x17
  | .fieldRd _ => some 0x18
  | .profRd => some 0x19
  | .profWr _ => some 0x1a
  | .profClr => some 0x1b
  | .reserved1c => some 0x1c
  | .reserved1d => some 0x1d
  | .reserved1e => some 0x1e
  | .reserved1f => some 0x1f

/-- `lo` and `n` are the least key and the number of keys of a write map that is one block of 1 to 10 addresses
(45_mirror R143). -/
abbrev SpanOf (w : ByteMap) (lo n : Nat) : Prop :=
  w.length = n ∧ 1 ≤ n ∧ n ≤ 10 ∧ (∀ e ∈ w, lo ≤ e.1.toNat ∧ e.1.toNat < lo + n)
    ∧ ∀ j < n, ∃ e ∈ w, e.1.toNat = lo + j

/-- The keys of a byte map are distinct (R143). -/
abbrev KeysDistinct (w : ByteMap) : Prop := (w.map Prod.fst).Nodup

namespace Machine

/-- The transport accepts the next write (46_host_sequences R155). -/
abbrev AcceptsWrite (s : State) : Prop := s.writes.head? = none ∨ s.writes.head? = some .accepts

/-- The state after a frame has been written and accepted, the host suspended in `read()` with the sequence `k` in flight
(R155, R157). -/
abbrev afterSend (s : State) (F : Bytes) (k : HostSeq) : State :=
  { s with writes := s.writes.tail, tx := s.tx ++ [F], inflight := some k }

/-- The state after the sequence in flight has ended with a result (R171). -/
abbrev afterEnd (s : State) (r : Result) : State :=
  { s with inflight := none, results := s.results ++ [r] }

/-- No reset is next at the port (70_reset_and_hazards R197). -/
abbrev NoResetNext (s : State) : Prop := s.port.head? ≠ some .reset ∧ s.port.head? ≠ some .resetInTurn

/-- `read()` returns the byte string `b` at the next step: a sequence is in flight, no reset is taken first, and `b` is at
the head of `RXQ`, or `RXQ` is empty and `b` arrives next (R155, R21; log 8, log 9, log 11). `t` is the state after the
byte string has been taken. -/
def Reads (s : State) (b : Bytes) (t : State) : Prop :=
  s.inflight.isSome = true ∧
    ((NoResetNext s ∧ ∃ q, s.rxq = .bytes b :: q ∧ t = { s with rxq := q, port := portAfterRead s.port })
      ∨ (s.rxq = [] ∧ ∃ r, s.port = .arrives b :: r ∧ t = { s with port := r }))

/-- The host's call of a typed getter, with what its scan is for (46_host_sequences R164, R169, R173). -/
abbrev GetterOf (c : HostCall) (g : AfterScan) : Prop :=
  (∃ f, c = .getField f ∧ g = .getField f) ∨ (∃ m, c = .getDpi m ∧ g = .getDpi m) ∨ ∃ m, c = .getLed m ∧ g = .getLed m

/-- `x` is what the read of a getter gives in `s`, in the terms of the block's operations (R164, R169): `FIELD_RD`, and
for the DPI of a mode `DPI_DEC` of the three bytes it answers; `Ok(())` for a plain `read_settings`. -/
def GetterReads (s : State) (g : AfterScan) (x : Result) : Prop :=
  match g with
  | .nothing => x = .ok .unit
  | .getField f =>
    exec (.fieldRd (.scalar (BitVec.ofNat 8 (fieldIndex f)))) s = .next { s with results := s.results ++ [x] }
  | .getLed m => exec (.fieldRd (.triple m .led)) s = .next { s with results := s.results ++ [x] }
  | .getDpi m => ∃ y : Result, exec (.fieldRd (.triple m .dpi)) s = .next { s with results := s.results ++ [y] }
      ∧ ((∀ v, y ≠ .ok v) → x = y)
      ∧ ∀ v, y = .ok v → ∃ raw0 raw1 raw2 : Byte, v = .bytes [raw0, raw1, raw2]
        ∧ exec (.dpiDec raw0 raw1 raw2) s = .next { s with results := s.results ++ [x] }

/-- What the sequence in flight carries is what the sequence may carry: a window within the address space (R163, R162),
a write map that has passed the span check (R165 step 1). -/
def SeqOk : HostSeq → Prop
  | .memRead start length => windowOk start.toNat length = true
  | .scan start rest _ => ∀ a ∈ start :: rest, a.toNat + 10 ≤ 256
  | .memSetStatus w => ∃ p, spanCheck w = .ok p
  | .memSetAck w => ∃ p, spanCheck w = .ok p
  | _ => True

/-- The invariant of a state: the mirror has its canonical form (10_state R14), every frame written to the transport is a
valid frame (41_frame_build R96), and the sequence in flight is as it should be. -/
def Inv (s : State) : Prop :=
  mirrorWf s.mirror = true ∧ (∀ F ∈ s.tx, ValidFrame F) ∧ ∀ k, s.inflight = some k → SeqOk k

/-- A run is safe when each of its states keeps the invariant. -/
def SafeFor (n : Nat) (s : State) : Prop :=
  match n with
  | 0 => Inv s
  | n + 1 => Inv s ∧ ∀ t, step s = .next t → SafeFor n t

end Machine

end Sys2Proof
end

