-- ==== Sys2Proof/Certificates/Slice0/Obligations.lean ====
section
/-! DEFINITION. The statements for the provers. `exec i s = .next { s with results := s.results ++ [r] }` says that the
operation completes with the one result `r` and changes nothing else: neither the mirror, nor the profile cache, nor a
request in flight, nor the transport. -/

open Sys2Proof Sys2Proof.Machine

/-! ## The checksum unit (40_checksum) -/

/-- R76, R77: `CKSUM` answers `(0x55 - sum) mod 256` of any byte sequence, the same byte for every order of the bytes and
the one that subtracting them from 0x55 with wraparound gives. -/
def Obligations.CksumSubtractsSum : Prop :=
  ∀ (b : Bytes) (s : State), (∃ r, encode s.cfg.val.capP3 (.cksum b) = .op (0x00 :: r)) ∧
    ∃ k : Byte, exec (.cksum b) s = .next { s with results := s.results ++ [.ok (.byte k)] }
      ∧ (k.toNat : Int) = (0x55 - ((b.map BitVec.toNat).sum : Nat)) % 256
      ∧ ∀ c : Bytes, c.Perm b → c.foldl (fun x v => x - v) 0x55 = k

/-- 40_checksum section 3, 70 section 2 (the spec's own inference from R79): one changed byte of a valid frame is
detected; a reordering that keeps the header, and two changes that cancel, are not. -/
def Obligations.ChecksumDetectsOneChange : Prop :=
  ∀ (F : Bytes) (s : State), ValidFrame F →
    (∀ (j : Nat) (v : Byte), j < 17 → F.getD j 0 ≠ v →
      exec (.rxcheck (F.set j v)) s = .next { s with results := s.results ++ [.error .checksumMismatch] })
    ∧ (∀ G : Bytes, G.Perm F → G.getD 0 0 = 0x08 →
      exec (.rxcheck G) s = .next { s with results := s.results ++ [.ok (.bytes G)] })
    ∧ (∀ (j k : Nat) (d : Byte), 0 < j → j < k → k < 17 →
      exec (.rxcheck ((F.set j (F.getD j 0 + d)).set k (F.getD k 0 - d))) s
        = .next { s with results := s.results ++ [.ok (.bytes ((F.set j (F.getD j 0 + d)).set k (F.getD k 0 - d)))] })

/-! ## The frame builder and serializer (41_frame_build) -/

/-- R83: `BUILD` refuses a byte that is no command, then an index above 13; otherwise it answers the frame with the
header, the command, the assigned parameters, zero for every other parameter, and the checksum of the sixteen bytes. -/
def Obligations.BuildAssignsParameters : Prop :=
  ∀ (c : Byte) (A : ByteMap) (s : State), KeysDistinct A →
    (∃ r, encode s.cfg.val.capP3 (.build c A) = .op (0x01 :: r)) ∧
    (c ∉ ([0x03, 0x04, 0x07, 0x08, 0x09, 0x0a, 0x0e, 0x0f] : Bytes) →
      exec (.build c A) s = .next { s with results := s.results ++ [.refused .badCommand] }) ∧
    (c ∈ ([0x03, 0x04, 0x07, 0x08, 0x09, 0x0a, 0x0e, 0x0f] : Bytes) → (∃ e ∈ A, 13 < e.1.toNat) →
      exec (.build c A) s = .next { s with results := s.results ++ [.refused .badParamIndex] }) ∧
    (c ∈ ([0x03, 0x04, 0x07, 0x08, 0x09, 0x0a, 0x0e, 0x0f] : Bytes) → (∀ e ∈ A, e.1.toNat ≤ 13) →
      ∃ F : Bytes, exec (.build c A) s = .next { s with results := s.results ++ [.ok (.bytes F)] }
        ∧ F.length = 17 ∧ F.getD 0 0 = 0x08 ∧ F.getD 1 0 = c
        ∧ (∀ k v : Byte, (k, v) ∈ A → F.getD (k.toNat + 2) 0 = v)
        ∧ (∀ k : Byte, k.toNat ≤ 13 → (∀ v : Byte, (k, v) ∉ A) → F.getD (k.toNat + 2) 0 = 0)
        ∧ ((F.getD 16 0).toNat : Int) = (0x55 - (((F.take 16).map BitVec.toNat).sum : Nat)) % 256)

/-- R84 to R92: the canonical frame of each payload variant, byte by byte. The byte `F[5]` of `CurrentActiveProfile` is the
parameter `CAP_P3`; with its decided value 0x01 (R88; log 2) the checksum is `0x3e - p`. -/
def Obligations.SerializeCanonicalFrames : Prop :=
  ∀ s : State,
    (∀ v, ∃ r, encode s.cfg.val.capP3 (.serialize v) = .op (0x02 :: r)) ∧
    exec (.serialize .restore) s = .next { s with results := s.results
      ++ [.ok (.bytes [0x08, 0x09, 0, 0, 0, 0, 0, 0, 0, 0, 0, 0, 0, 0, 0, 0, 0x44])] } ∧
    exec (.serialize .requestActiveProfile) s = .next { s with results := s.results
      ++ [.ok (.bytes [0x08, 0x0e, 0, 0, 0, 0, 0, 0, 0, 0, 0, 0, 0, 0, 0, 0, 0x3f])] } ∧
    (∀ p : Byte, exec (.serialize (.currentActiveProfile p)) s = .next { s with results := s.results
      ++ [.ok (.bytes [0x08, 0x0e, 0, 0, 0, s.cfg.val.capP3, p, 0, 0, 0, 0, 0, 0, 0, 0, 0, 0x3f - s.cfg.val.capP3 - p])] }) ∧
    (∀ p : Byte, exec (.serialize (.setActiveProfile p)) s = .next { s with results := s.results
      ++ [.ok (.bytes [0x08, 0x0f, 0, 0, 0, 0x01, p, 0, 0, 0, 0, 0, 0, 0, 0, 0, 0x3d - p])] }) ∧
    (∀ (e : EventKind) (k : Byte),
      k = (match e with | .unknown1 => s.cfg.val.ekUnknown1 | .dpiMode => s.cfg.val.ekDpiMode | .power => s.cfg.val.ekPower) →
      exec (.serialize (.deviceEvent e)) s = .next { s with results := s.results
        ++ [.ok (.bytes [0x08, 0x0a, 0, 0, 0, 0, k, 0, 0, 0, 0, 0, 0, 0, 0, 0, 0x43 - k])] }) ∧
    exec (.serialize .requestPowerDetails) s = .next { s with results := s.results
      ++ [.ok (.bytes [0x08, 0x04, 0, 0, 0, 0, 0, 0, 0, 0, 0, 0, 0, 0, 0, 0, 0x49])] } ∧
    (∀ (b : Byte) (f : Bool) (m : BitVec 16) (c h l : Byte), c = (if f then 0x01 else 0x00) →
      h.toNat = m.toNat / 256 → l.toNat = m.toNat % 256 →
      exec (.serialize (.powerDetails b f m)) s = .next { s with results := s.results
        ++ [.ok (.bytes [0x08, 0x04, 0, 0, 0, 0, b, c, h, l, 0, 0, 0, 0, 0, 0, 0x49 - b - c - h - l])] })

/-- R85, R93: the bare frame of each command, with the checksum `0x4d - c`, and `STATUS_BUILD`, which answers that of
STATUS. -/
def Obligations.BareFramesAndStatusBuild : Prop :=
  ∀ s : State,
    (∀ c : Byte, c ∈ ([0x03, 0x04, 0x07, 0x08, 0x09, 0x0a, 0x0e, 0x0f] : Bytes) →
      exec (.build c []) s = .next { s with results := s.results
        ++ [.ok (.bytes [0x08, c, 0, 0, 0, 0, 0, 0, 0, 0, 0, 0, 0, 0, 0, 0, 0x4d - c])] }) ∧
    encode s.cfg.val.capP3 .statusBuild = .op [0x03] ∧
    exec .statusBuild s = .next { s with results := s.results
      ++ [.ok (.bytes [0x08, 0x03, 0, 0, 0, 0, 0, 0, 0, 0, 0, 0, 0, 0, 0, 0, 0x4a])] }

/-- R94: `MEMGET_BUILD` tests the length, an unsigned integer of any size, then the end of the window, and answers the
MEM_GET request. -/
def Obligations.MemgetBuildRequest : Prop :=
  ∀ (start : Byte) (length : Nat) (s : State),
    (∃ r, encode s.cfg.val.capP3 (.memgetBuild start length) = .op (0x04 :: r)) ∧
    ∀ n : Byte, n.toNat = length % 256 →
    exec (.memgetBuild start length) s = .next { s with results := s.results ++ [
      if length < 1 ∨ 10 < length then .refused .badLength
      else if 256 < start.toNat + length then .refused .addressOverflow
      else .ok (.bytes [0x08, 0x08, 0, 0, start, n, 0, 0, 0, 0, 0, 0, 0, 0, 0, 0, 0x45 - start - n])] }

/-- R95: `MEMSET_BUILD` answers the MEM_SET request of a write map that is one block of 1 to 10 addresses, its values in
address order, and `InvalidWriteSpan` for every other map. -/
def Obligations.MemsetBuildRequest : Prop :=
  ∀ (w : ByteMap) (s : State), KeysDistinct w →
    (∃ r, encode s.cfg.val.capP3 (.memsetBuild w) = .op (0x05 :: r)) ∧
    ((¬ ∃ lo n, SpanOf w lo n) →
      exec (.memsetBuild w) s = .next { s with results := s.results ++ [.error .invalidWriteSpan] }) ∧
    (∀ lo n, SpanOf w lo n →
      ∃ F : Bytes, exec (.memsetBuild w) s = .next { s with results := s.results ++ [.ok (.bytes F)] }
        ∧ ValidFrame F ∧ F.getD 1 0 = 0x07 ∧ F.getD 2 0 = 0 ∧ F.getD 3 0 = 0
        ∧ (F.getD 4 0).toNat = lo ∧ (F.getD 5 0).toNat = n
        ∧ (∀ a v : Byte, (a, v) ∈ w → F.getD (6 + (a.toNat - lo)) 0 = v)
        ∧ ∀ j, n ≤ j → j < 10 → F.getD (6 + j) 0 = 0)

/-- R96: whatever frame one of the five building operations answers is valid, so `RXCHECK` accepts it, in any state. -/
def Obligations.BuiltFramesPassRxcheck : Prop :=
  ∀ (i : Instr) (s : State) (F : Bytes),
    ((∃ c A, i = .build c A) ∨ (∃ v, i = .serialize v) ∨ i = .statusBuild ∨ (∃ a n, i = .memgetBuild a n)
      ∨ ∃ w, i = .memsetBuild w) →
    exec i s = .next { s with results := s.results ++ [.ok (.bytes F)] } →
    F.length = 17 ∧ F.getD 0 0 = 0x08
      ∧ ((F.getD 16 0).toNat : Int) = (0x55 - (((F.take 16).map BitVec.toNat).sum : Nat)) % 256
      ∧ ∀ t : State, exec (.rxcheck F) t = .next { t with results := t.results ++ [.ok (.bytes F)] }

/-- R113: parsing the canonical frame of a payload gives the payload back, but for `PowerDetails{0, false, 0}`, whose
frame is the bare POWER request. -/
def Obligations.VariantRoundTrip : Prop :=
  ∀ (v : Payload) (s : State),
    ∃ F : Bytes, exec (.serialize v) s = .next { s with results := s.results ++ [.ok (.bytes F)] }
      ∧ ∀ t : State, t.cfg = s.cfg → exec (.parse F) t = .next { t with results := t.results ++ [.ok (.payload
          (if v = .powerDetails 0 false 0 then .requestPowerDetails else v))] }

/-! ## The frame validator and parser (42_frame_parse) -/

/-- R98: `RXCHECK` tests the length, the checksum and the header, in that order, and gives the frame back. -/
def Obligations.RxcheckTestsInOrder : Prop :=
  ∀ (b : Bytes) (s : State), (∃ r, encode s.cfg.val.capP3 (.rxcheck b) = .op (0x06 :: r)) ∧
    ∃ k : Byte, (k.toNat : Int) = (0x55 - (((b.take 16).map BitVec.toNat).sum : Nat)) % 256 ∧
    exec (.rxcheck b) s = .next { s with results := s.results ++ [
      if b.length ≠ 17 then .error .malformedFrame
      else if b.getD 16 0 ≠ k then .error .checksumMismatch
      else if b.getD 0 0 ≠ 0x08 then .error .malformedFrame
      else .ok (.bytes b)] }

/-- R99 to R106, with the order of tests of R184: the one result of `PARSE` on every byte string. The kind bytes and
`CAP_P3` are the tables' (log 1, log 2). -/
def Obligations.ParseByCommand : Prop :=
  ∀ (b : Bytes) (s : State), (∃ r, encode s.cfg.val.capP3 (.parse b) = .op (0x07 :: r)) ∧
    exec (.parse b) s = .next { s with results := s.results ++ [
      match validationError b with
      | some e => .error e
      | none =>
        let c := b.getD 1 0
        if c ∉ ([0x03, 0x04, 0x07, 0x08, 0x09, 0x0a, 0x0e, 0x0f] : Bytes) then .error .unknownCommand
        else if c = 0x03 ∨ c = 0x07 ∨ c = 0x08 then .error .notImplemented
        else if c = 0x04 then
          if b = [0x08, 0x04, 0, 0, 0, 0, 0, 0, 0, 0, 0, 0, 0, 0, 0, 0, 0x49] then .ok (.payload .requestPowerDetails)
          else .ok (.payload (.powerDetails (b.getD 6 0) (decide (b.getD 7 0 ≠ 0))
            (BitVec.ofNat 16 ((b.getD 8 0).toNat * 256 + (b.getD 9 0).toNat))))
        else if c = 0x09 then
          if b = [0x08, 0x09, 0, 0, 0, 0, 0, 0, 0, 0, 0, 0, 0, 0, 0, 0, 0x44] then .ok (.payload .restore)
          else .error .unexpectedResponse
        else if c = 0x0a then
          if b.getD 6 0 = s.cfg.val.ekUnknown1 then .ok (.payload (.deviceEvent .unknown1))
          else if b.getD 6 0 = s.cfg.val.ekDpiMode then .ok (.payload (.deviceEvent .dpiMode))
          else if b.getD 6 0 = s.cfg.val.ekPower then .ok (.payload (.deviceEvent .power))
          else .error .unknownDeviceEvent
        else if c = 0x0f then
          if b = [0x08, 0x0f, 0, 0, 0, 0x01, b.getD 6 0, 0, 0, 0, 0, 0, 0, 0, 0, 0, 0x3d - b.getD 6 0] then
            .ok (.payload (.setActiveProfile (b.getD 6 0)))
          else .error .unexpectedResponse
        else if b = [0x08, 0x0e, 0, 0, 0, 0, 0, 0, 0, 0, 0, 0, 0, 0, 0, 0, 0x3f] then
          .ok (.payload .requestActiveProfile)
        else if b = [0x08, 0x0e, 0, 0, 0, s.cfg.val.capP3, b.getD 6 0, 0, 0, 0, 0, 0, 0, 0, 0, 0,
            0x3f - s.cfg.val.capP3 - b.getD 6 0] then
          .ok (.payload (.currentActiveProfile (b.getD 6 0)))
        else .error .unexpectedResponse] }

/-- R107: for the five variants that are so checked, a frame that parses to a variant is that variant's canonical
frame, all seventeen bytes. -/
def Obligations.ParsedFrameIsCanonical : Prop :=
  ∀ (b : Bytes) (s : State) (v : Payload),
    exec (.parse b) s = .next { s with results := s.results ++ [.ok (.payload v)] } →
    (v = .restore ∨ v = .requestActiveProfile ∨ (∃ p, v = .currentActiveProfile p) ∨ (∃ p, v = .setActiveProfile p)
      ∨ v = .requestPowerDetails) →
    exec (.serialize v) s = .next { s with results := s.results ++ [.ok (.bytes b)] }

/-- R108, R109, R111: `STATUS_DEC`, `POWER_DEC` and `MEMSET_ACK` validate, then refuse a frame of another command; they
read `F[6]` as a boolean, extract the three fields of `PowerDetails` (of the bare request too), and accept any frame. -/
def Obligations.RawDecodersByCommand : Prop :=
  ∀ (b : Bytes) (s : State),
    (∃ r, encode s.cfg.val.capP3 (.statusDec b) = .op (0x08 :: r)) ∧ (∃ r, encode s.cfg.val.capP3 (.powerDec b) = .op (0x09 :: r)) ∧
    (∃ r, encode s.cfg.val.capP3 (.memsetAck b) = .op (0x0b :: r)) ∧
    exec (.statusDec b) s = .next { s with results := s.results ++ [
      match validationError b with
      | some e => .error e
      | none => if b.getD 1 0 ≠ 0x03 then .refused .wrongCommand else .ok (.flag (decide (b.getD 6 0 ≠ 0)))] } ∧
    exec (.powerDec b) s = .next { s with results := s.results ++ [
      match validationError b with
      | some e => .error e
      | none =>
        if b.getD 1 0 ≠ 0x04 then .refused .wrongCommand
        else .ok (.payload (.powerDetails (b.getD 6 0) (decide (b.getD 7 0 ≠ 0))
          (BitVec.ofNat 16 ((b.getD 8 0).toNat * 256 + (b.getD 9 0).toNat))))] } ∧
    exec (.memsetAck b) s = .next { s with results := s.results ++ [
      match validationError b with
      | some e => .error e
      | none => if b.getD 1 0 ≠ 0x07 then .refused .wrongCommand else .ok .unit] }

/-- R110: `MEMGET_DEC` validates, refuses a window that is none and another command, requires the echo of start and
length, and answers the data bytes. That a bad window is refused before the command byte is looked at is the model's
reading (log 18). -/
def Obligations.MemgetDecChecksEcho : Prop :=
  ∀ (b : Bytes) (start : Byte) (length : Nat) (s : State),
    (∃ r, encode s.cfg.val.capP3 (.memgetDec b start length) = .op (0x0a :: r)) ∧
    ∃ d : Bytes, exec (.memgetDec b start length) s = .next { s with results := s.results ++ [
      match validationError b with
      | some e => .error e
      | none =>
        if length < 1 ∨ 10 < length then .refused .badLength
        else if 256 < start.toNat + length then .refused .addressOverflow
        else if b.getD 1 0 ≠ 0x08 then .refused .wrongCommand
        else if b.getD 4 0 ≠ start ∨ (b.getD 5 0).toNat ≠ length then .error .protocolMismatch
        else .ok (.bytes d)] }
      ∧ (b.length = 17 → length ≤ 10 → d.length = length ∧ ∀ j, j < length → d.getD j 0 = b.getD (6 + j) 0)

/-! ## The DPI converter (43_dpi) -/

/-- R119: `DPI_ENC` tests the range, then divisibility by 50, and answers the quotient byte twice and its factor in bits
3:2 and 7:6. -/
def Obligations.DpiEncThreeBytes : Prop :=
  ∀ (d : BitVec 32) (s : State), (∃ r, encode s.cfg.val.capP3 (.dpiEnc d) = .op (0x0c :: r)) ∧
    ∃ q2 lo : Byte, exec (.dpiEnc d) s = .next { s with results := s.results ++ [
      if d.toNat < 50 ∨ 26000 < d.toNat then .error .outOfRange
      else if d.toNat % 50 ≠ 0 then .error .notAMultiple
      else .ok (.bytes [lo, lo, q2])] }
      ∧ (50 ≤ d.toNat → d.toNat ≤ 26000 → lo.toNat = (d.toNat / 50 - 1) % 256
        ∧ q2.toNat = (d.toNat / 50 - 1) / 256 * 4 + (d.toNat / 50 - 1) / 256 * 64)

/-- R120: `DPI_DEC` accepts exactly two equal bytes with a third byte of 0x00, 0x44, 0x88 or 0xcc, without a range test;
everything else is `Inconsistent`. -/
def Obligations.DpiDecLegalTriples : Prop :=
  ∀ (raw0 raw1 raw2 : Byte) (s : State), (∃ r, encode s.cfg.val.capP3 (.dpiDec raw0 raw1 raw2) = .op (0x0d :: r)) ∧
    ∃ d : BitVec 32, d.toNat = (raw1.toNat + 1) * 50 + raw2.toNat / 64 * 12800 ∧
      exec (.dpiDec raw0 raw1 raw2) s = .next { s with results := s.results ++ [
        if raw0 = raw1 ∧ raw2 ∈ ([0x00, 0x44, 0x88, 0xcc] : Bytes) then .ok (.dpi d) else .error .inconsistent] }

/-- R121: decoding the encoding of each of the 520 valid DPI values gives the value. -/
def Obligations.DpiRoundTrip : Prop :=
  ∀ (d : BitVec 32) (s t : State), 50 ≤ d.toNat → d.toNat ≤ 26000 → d.toNat % 50 = 0 →
    ∃ raw0 raw1 raw2 : Byte,
      exec (.dpiEnc d) s = .next { s with results := s.results ++ [.ok (.bytes [raw0, raw1, raw2])] }
      ∧ exec (.dpiDec raw0 raw1 raw2) t = .next { t with results := t.results ++ [.ok (.dpi d)] }

/-! ## The address map (44_address_map) -/

/-- R132, R130, R129, R131: `MAP_LOOKUP` answers the row of the named field and refuses a name byte above the thirteen
names (numbered in R125's order: log 19); `MODE_LOOKUP` refuses a mode above 3, then a slot above 7, and answers
`MODE_BASE + m*MODE_STRIDE + MODE_OFF[j]`, which never wraps; `BTN_LOOKUP` refuses a slot above 4, then an index above 2,
and answers `BTN_ADDR[s][i]`. -/
def Obligations.LookupsAnswerTables : Prop :=
  ∀ s : State,
    (∀ n, ∃ r, encode s.cfg.val.capP3 (.mapLookup n) = .op (0x0e :: r)) ∧ (∀ m j, ∃ r, encode s.cfg.val.capP3 (.modeLookup m j) = .op (0x0f :: r)) ∧
    (∀ u i, ∃ r, encode s.cfg.val.capP3 (.btnLookup u i) = .op (0x10 :: r)) ∧
    (∀ f : ScalarField, ∃ row : Config.FieldAddr, s.cfg.val.scalars[fieldIndex f]? = some row ∧
      exec (.mapLookup (BitVec.ofNat 8 (fieldIndex f))) s
        = .next { s with results := s.results ++ [.ok (.addrPair row.addr row.cks)] }) ∧
    (∀ n : Byte, 12 < n.toNat →
      exec (.mapLookup n) s = .next { s with results := s.results ++ [.refused .badName] }) ∧
    (∀ m j : Byte, 3 < m.toNat →
      exec (.modeLookup m j) s = .next { s with results := s.results ++ [.refused .badMode] }) ∧
    (∀ m j : Byte, m.toNat ≤ 3 → 7 < j.toNat →
      exec (.modeLookup m j) s = .next { s with results := s.results ++ [.refused .badSlot] }) ∧
    (∀ m j : Byte, m.toNat ≤ 3 → j.toNat ≤ 7 → ∃ (a : Byte) (off : Nat), s.cfg.val.modeOff[j.toNat]? = some off
      ∧ a.toNat = s.cfg.val.modeBase.toNat + m.toNat * s.cfg.val.modeStride + off ∧ a.toNat ≤ 0xc7
      ∧ exec (.modeLookup m j) s = .next { s with results := s.results ++ [.ok (.byte a)] }) ∧
    (∀ u i : Byte, 4 < u.toNat →
      exec (.btnLookup u i) s = .next { s with results := s.results ++ [.refused .badSlot] }) ∧
    (∀ u i : Byte, u.toNat ≤ 4 → 2 < i.toNat →
      exec (.btnLookup u i) s = .next { s with results := s.results ++ [.refused .badIndex] }) ∧
    (∀ u i : Byte, u.toNat ≤ 4 → i.toNat ≤ 2 → ∃ (row : Bytes) (a : Byte),
      s.cfg.val.buttons[u.toNat]? = some row ∧ row[i.toNat]? = some a
      ∧ exec (.btnLookup u i) s = .next { s with results := s.results ++ [.ok (.byte a)] })

/-- R133: `FIELD_PAIR` answers the value and its checksum byte at the field's two addresses, or the three bytes of a mode
record's group and their checksum byte at its four; it refuses a mode above 3, and (R132's rule for a wider name input)
a name above the thirteen; and the map it answers always passes `SPAN_CHECK`. -/
def Obligations.FieldPairIsContiguous : Prop :=
  ∀ s : State,
    (∀ o, ∃ r, encode s.cfg.val.capP3 (.fieldPair o) = .op (0x11 :: r)) ∧
    (∀ (f : ScalarField) (v : Byte), ∃ (row : Config.FieldAddr) (k start : Byte),
      s.cfg.val.scalars[fieldIndex f]? = some row ∧ k + v = 0x55 ∧ row.addr ≠ row.cks
      ∧ exec (.fieldPair (.scalar (BitVec.ofNat 8 (fieldIndex f)) v)) s
        = .next { s with results := s.results ++ [.ok (.map [(row.addr, v), (row.cks, k)])] }
      ∧ exec (.spanCheck [(row.addr, v), (row.cks, k)]) s
        = .next { s with results := s.results ++ [.ok (.span start 2)] }) ∧
    (∀ n v : Byte, 12 < n.toNat →
      exec (.fieldPair (.scalar n v)) s = .next { s with results := s.results ++ [.refused .badName] }) ∧
    (∀ (m : Byte) (g : Group) (b0 b1 b2 : Byte), 3 < m.toNat →
      exec (.fieldPair (.triple m g b0 b1 b2)) s = .next { s with results := s.results ++ [.refused .badMode] }) ∧
    (∀ (m : Byte) (g : Group) (b0 b1 b2 : Byte) (o : Nat), m.toNat ≤ 3 → o = (match g with | .dpi => 0 | .led => 4) →
      ∃ (a0 a1 a2 a3 k start : Byte) (o0 o1 o2 o3 : Nat),
        s.cfg.val.modeOff[o]? = some o0 ∧ s.cfg.val.modeOff[o + 1]? = some o1
        ∧ s.cfg.val.modeOff[o + 2]? = some o2 ∧ s.cfg.val.modeOff[o + 3]? = some o3
        ∧ a0.toNat = s.cfg.val.modeBase.toNat + m.toNat * s.cfg.val.modeStride + o0
        ∧ a1.toNat = s.cfg.val.modeBase.toNat + m.toNat * s.cfg.val.modeStride + o1
        ∧ a2.toNat = s.cfg.val.modeBase.toNat + m.toNat * s.cfg.val.modeStride + o2
        ∧ a3.toNat = s.cfg.val.modeBase.toNat + m.toNat * s.cfg.val.modeStride + o3
        ∧ k + b0 + b1 + b2 = 0x55 ∧ KeysDistinct [(a0, b0), (a1, b1), (a2, b2), (a3, k)]
        ∧ exec (.fieldPair (.triple m g b0 b1 b2)) s
          = .next { s with results := s.results ++ [.ok (.map [(a0, b0), (a1, b1), (a2, b2), (a3, k)])] }
        ∧ exec (.spanCheck [(a0, b0), (a1, b1), (a2, b2), (a3, k)]) s
          = .next { s with results := s.results ++ [.ok (.span start 4)] })

/-! ## The mirror and the profile cache (45_mirror) -/

/-- R143: `SPAN_CHECK` answers start and length of a write map that is one block of 1 to 10 addresses, in whatever order
its entries are given, and `InvalidWriteSpan` for every other map. -/
def Obligations.SpanCheckBlock : Prop :=
  ∀ (w : ByteMap) (s : State), KeysDistinct w →
    (∃ r, encode s.cfg.val.capP3 (.spanCheck w) = .op (0x12 :: r)) ∧
    ((¬ ∃ lo n, SpanOf w lo n) →
      exec (.spanCheck w) s = .next { s with results := s.results ++ [.error .invalidWriteSpan] }) ∧
    (∀ lo n, SpanOf w lo n → ∃ start : Byte, start.toNat = lo
      ∧ exec (.spanCheck w) s = .next { s with results := s.results ++ [.ok (.span start n)] })

/-- R140, R141: `MIR_RD` answers the value of a valid entry and misses, naming the address, on an invalid one; `MIR_EMPTY`
answers true exactly when none of the 256 entries is valid. -/
def Obligations.MirrorReads : Prop :=
  ∀ s : State, (∀ a, ∃ r, encode s.cfg.val.capP3 (.mirRd a) = .op (0x13 :: r)) ∧ encode s.cfg.val.capP3 .mirEmpty = .op [0x14] ∧
    (∀ a v : Byte, mirrorGet s.mirror a.toNat = some v →
      exec (.mirRd a) s = .next { s with results := s.results ++ [.ok (.byte v)] }) ∧
    (∀ a : Byte, mirrorGet s.mirror a.toNat = none →
      exec (.mirRd a) s = .next { s with results := s.results ++ [.miss (.entry a)] }) ∧
    ((∀ a : Byte, mirrorGet s.mirror a.toNat = none) →
      exec .mirEmpty s = .next { s with results := s.results ++ [.ok (.flag true)] }) ∧
    ((∃ a v : Byte, mirrorGet s.mirror a.toNat = some v) →
      exec .mirEmpty s = .next { s with results := s.results ++ [.ok (.flag false)] })

/-- R142: `MIR_FILL` refuses a bad length, then a window past 0xff, writing nothing; otherwise exactly the entries of the
window take the data bytes and become valid, and every other entry is as before. -/
def Obligations.MirFillMergesWindow : Prop :=
  ∀ (start : Byte) (d : Bytes) (s : State),
    (∃ r, encode s.cfg.val.capP3 (.mirFill start d) = .op (0x15 :: r)) ∧
    (d.length < 1 ∨ 10 < d.length →
      exec (.mirFill start d) s = .next { s with results := s.results ++ [.refused .badLength] }) ∧
    (1 ≤ d.length → d.length ≤ 10 → 256 < start.toNat + d.length →
      exec (.mirFill start d) s = .next { s with results := s.results ++ [.refused .addressOverflow] }) ∧
    (1 ≤ d.length → d.length ≤ 10 → start.toNat + d.length ≤ 256 →
      ∃ m, exec (.mirFill start d) s = .next { s with mirror := m, results := s.results ++ [.ok .unit] }
        ∧ (∀ j, j < d.length → mirrorGet m (start.toNat + j) = some (d.getD j 0))
        ∧ ∀ a, a < start.toNat ∨ start.toNat + d.length ≤ a → mirrorGet m a = mirrorGet s.mirror a)

/-- R144: `MIR_WR` answers `InvalidWriteSpan`, writing nothing, for a map that fails the span check; otherwise exactly
the map's entries take its values and become valid. -/
def Obligations.MirWrMergesPairs : Prop :=
  ∀ (w : ByteMap) (s : State), KeysDistinct w →
    (∃ r, encode s.cfg.val.capP3 (.mirWr w) = .op (0x16 :: r)) ∧
    ((¬ ∃ lo n, SpanOf w lo n) →
      exec (.mirWr w) s = .next { s with results := s.results ++ [.error .invalidWriteSpan] }) ∧
    ((∃ lo n, SpanOf w lo n) →
      ∃ m, exec (.mirWr w) s = .next { s with mirror := m, results := s.results ++ [.ok .unit] }
        ∧ (∀ a v : Byte, (a, v) ∈ w → mirrorGet m a.toNat = some v)
        ∧ ∀ a : Nat, (∀ e ∈ w, e.1.toNat ≠ a) → mirrorGet m a = mirrorGet s.mirror a)

/-- R147: `FIELD_RD` reads a field's entries in order, misses at the first invalid one, then compares the checksum byte,
then answers the raw byte or triple; a mode above 3 is refused, and a name above the thirteen (log 19). -/
def Obligations.FieldRdChecksPair : Prop :=
  ∀ s : State,
    (∀ o, ∃ r, encode s.cfg.val.capP3 (.fieldRd o) = .op (0x18 :: r)) ∧
    (∀ n : Byte, 12 < n.toNat →
      exec (.fieldRd (.scalar n)) s = .next { s with results := s.results ++ [.refused .badName] }) ∧
    (∀ (m : Byte) (g : Group), 3 < m.toNat →
      exec (.fieldRd (.triple m g)) s = .next { s with results := s.results ++ [.refused .badMode] }) ∧
    (∀ f : ScalarField, ∃ row : Config.FieldAddr, s.cfg.val.scalars[fieldIndex f]? = some row ∧
      exec (.fieldRd (.scalar (BitVec.ofNat 8 (fieldIndex f)))) s = .next { s with results := s.results ++ [
        match mirrorGet s.mirror row.addr.toNat, mirrorGet s.mirror row.cks.toNat with
        | none, _ => .miss (.entry row.addr)
        | some _, none => .miss (.entry row.cks)
        | some v, some k => if k + v = 0x55 then .ok (.byte v) else .error .checksumMismatch] }) ∧
    (∀ (m : Byte) (g : Group) (o : Nat), m.toNat ≤ 3 → o = (match g with | .dpi => 0 | .led => 4) →
      ∃ (a0 a1 a2 a3 : Byte) (o0 o1 o2 o3 : Nat),
        s.cfg.val.modeOff[o]? = some o0 ∧ s.cfg.val.modeOff[o + 1]? = some o1
        ∧ s.cfg.val.modeOff[o + 2]? = some o2 ∧ s.cfg.val.modeOff[o + 3]? = some o3
        ∧ a0.toNat = s.cfg.val.modeBase.toNat + m.toNat * s.cfg.val.modeStride + o0
        ∧ a1.toNat = s.cfg.val.modeBase.toNat + m.toNat * s.cfg.val.modeStride + o1
        ∧ a2.toNat = s.cfg.val.modeBase.toNat + m.toNat * s.cfg.val.modeStride + o2
        ∧ a3.toNat = s.cfg.val.modeBase.toNat + m.toNat * s.cfg.val.modeStride + o3
        ∧ exec (.fieldRd (.triple m g)) s = .next { s with results := s.results ++ [
          match mirrorGet s.mirror a0.toNat, mirrorGet s.mirror a1.toNat, mirrorGet s.mirror a2.toNat,
            mirrorGet s.mirror a3.toNat with
          | none, _, _, _ => .miss (.entry a0)
          | some _, none, _, _ => .miss (.entry a1)
          | some _, some _, none, _ => .miss (.entry a2)
          | some _, some _, some _, none => .miss (.entry a3)
          | some b0, some b1, some b2, some k =>
            if k + b0 + b1 + b2 = 0x55 then .ok (.bytes [b0, b1, b2]) else .error .checksumMismatch] })

/-- R145, R150 to R152: `MIR_CLR` makes every entry invalid and does not touch the profile cache; `PROF_WR` caches any
byte, `PROF_RD` answers the cached profile or misses, `PROF_CLR` empties the cache. -/
def Obligations.ClearAndProfileCache : Prop :=
  ∀ s : State, encode s.cfg.val.capP3 .mirClr = .op [0x17] ∧ encode s.cfg.val.capP3 .profRd = .op [0x19] ∧ (∀ p, ∃ r, encode s.cfg.val.capP3 (.profWr p) = .op (0x1a :: r)) ∧
    encode s.cfg.val.capP3 .profClr = .op [0x1b] ∧
    (∃ m, exec .mirClr s = .next { s with mirror := m, results := s.results ++ [.ok .unit] }
      ∧ ∀ a, mirrorGet m a = none) ∧
    (∀ p, s.prof = some p → exec .profRd s = .next { s with results := s.results ++ [.ok (.byte p)] }) ∧
    (s.prof = none → exec .profRd s = .next { s with results := s.results ++ [.miss .prof] }) ∧
    (∀ p, exec (.profWr p) s = .next { s with prof := some p, results := s.results ++ [.ok .unit] }) ∧
    exec .profClr s = .next { s with prof := none, results := s.results ++ [.ok .unit] }

/-! ## Selects and results (30_encoding, 60_exceptions) -/

/-- R70, R71: an operation is presented with its select of the table, and an operation word, whatever its operand bytes,
decodes only to the operation of the low five bits of its first byte (the operand bytes are the model's: log 3); a
reserved select, whatever follows it, answers `Refused(BadOp)` and changes no state. -/
def Obligations.OperationSelects : Prop :=
  ∀ cap : Byte,
  (∀ (i : Instr) (op : Byte), opSelect i = some op → op.toNat < 32 ∧ ∃ r, encode cap i = .op (op :: r)) ∧
  (∀ i : Instr, opSelect i = none → ∃ F, encode cap i = .wire F) ∧
  (∀ (b : Byte) (r : Bytes) (i : Instr), decode cap (.op (b :: r)) = .ok i →
    ∃ op : Byte, opSelect i = some op ∧ op.toNat = b.toNat % 32) ∧
  ∀ s : State,
    (∀ r : Bytes, decode cap (.op (0x1c :: r)) = .ok .reserved1c ∧ decode cap (.op (0x1d :: r)) = .ok .reserved1d
      ∧ decode cap (.op (0x1e :: r)) = .ok .reserved1e ∧ decode cap (.op (0x1f :: r)) = .ok .reserved1f) ∧
    exec .reserved1c s = .next { s with results := s.results ++ [.refused .badOp] } ∧
    exec .reserved1d s = .next { s with results := s.results ++ [.refused .badOp] } ∧
    exec .reserved1e s = .next { s with results := s.results ++ [.refused .badOp] } ∧
    exec .reserved1f s = .next { s with results := s.results ++ [.refused .badOp] }

/-- R177, R186, R15, R17: every operation completes with exactly one result and touches neither the tables, nor a request
in flight, nor the transport; only `MIR_FILL`, `MIR_WR`, `MIR_CLR` change the mirror, only `PROF_WR`, `PROF_CLR` the
profile cache, and an operation whose result is not `Ok` changes neither. -/
def Obligations.OperationsTouchOnlyTheirState : Prop :=
  ∀ (i : Instr) (op : Byte) (s : State), opSelect i = some op →
    ∃ (m : List Host.Cell) (p : Option Byte) (r : Result),
      exec i s = .next { s with mirror := m, prof := p, results := s.results ++ [r] }
      ∧ (op ∉ ([0x15, 0x16, 0x17] : Bytes) → m = s.mirror) ∧ (op ∉ ([0x1a, 0x1b] : Bytes) → p = s.prof)
      ∧ ((∀ v, r ≠ .ok v) → m = s.mirror ∧ p = s.prof)

/-! ## Encoding (30_encoding) -/

/-- The words of a few frame forms and operations, written out from R57 to R61, R64, R70 and 95_test_vectors, decode
to the instructions they stand for, with the decided `CAP_P3`, 0x01. The operand bytes of the operations are the model's
serialisation (log 3). -/
def Obligations.DecodesWrittenWords : Prop :=
  decode 0x01 (.wire [0x08, 0x03, 0, 0, 0, 0, 0, 0, 0, 0, 0, 0, 0, 0, 0, 0, 0x4a]) = .ok .statusReq ∧
  decode 0x01 (.wire [0x08, 0x08, 0, 0, 0x0a, 0x0a, 0, 0, 0, 0, 0, 0, 0, 0, 0, 0, 0x31]) = .ok (.memGetReq 0x0a 0x0a 0x31) ∧
  decode 0x01 (.wire [0x08, 0x07, 0, 0, 0x10, 0x02, 0x02, 0x53, 0, 0, 0, 0, 0, 0, 0, 0, 0xdf])
    = .ok (.memSetReq 0x10 0x02 [0x02, 0x53, 0, 0, 0, 0, 0, 0, 0, 0] 0xdf) ∧
  decode 0x01 (.wire [0x08, 0x0f, 0, 0, 0, 0x01, 0x03, 0, 0, 0, 0, 0, 0, 0, 0, 0, 0x3a]) = .ok (.activeProfileSet 0x03 0x3a) ∧
  decode 0x01 (.wire [0x08, 0x0e, 0, 0, 0, 0x01, 0x02, 0, 0, 0, 0, 0, 0, 0, 0, 0, 0x3c]) = .ok (.activeProfileGetRsp 0x02 0x3c) ∧
  decode 0x01 (.op [0x13, 0x0c]) = .ok (.mirRd 0x0c) ∧
  decode 0x01 (.op [0x00, 0x01, 0x56, 0x00]) = .ok (.cksum [0x56])

/-- Decoding the port word of a well-formed instruction, every operand at every value the encoding admits, gives the
instruction, whatever well-formed tables give `CAP_P3` (R8). The operand bytes of the operations are the model's
serialisation (log 3). -/
def Obligations.DecodeOfEncode : Prop :=
  ∀ (t : Config.WfTables) (i : Instr), wellFormed i = true → decode t.val.capP3 (encode t.val.capP3 i) = .ok i

/-- A frame form keeps every byte of the frame: what a byte string decodes to encodes back to the same seventeen bytes,
with the header and one of the eight commands (R51, R52, R55, R57). -/
def Obligations.DecodedFrameKeepsEveryByte : Prop :=
  ∀ (cap : Byte) (F : Bytes) (i : Instr), decodeFrame cap F = .ok i →
    encode cap i = .wire F ∧ wellFormed i = true ∧ F.length = 17 ∧ F.getD 0 0 = 0x08
      ∧ F.getD 1 0 ∈ ([0x03, 0x04, 0x07, 0x08, 0x09, 0x0a, 0x0e, 0x0f] : Bytes)

/-- A 17-byte string with the header decodes to the row of opcode_table.json whose mask and match it meets, the request
row first (INDEX.md, R57): no bit the mask leaves open matters. The open byte `F[5]` of
the ACTIVE_PROFILE_GET response is `CAP_P3`, which the table writes with its decided value 0x01 (R57, log 2). A byte that
is no command, and a RESTORE or profile frame of another content, is no form. -/
def Obligations.FramesDecodeByMask : Prop :=
  ∀ (cap : Byte) (F : Bytes), F.length = 17 → F.getD 0 0 = 0x08 →
    (F.getD 1 0 = 0x03 → decodeFrame cap F = .ok
      (if F = [0x08, 0x03, 0, 0, 0, 0, 0, 0, 0, 0, 0, 0, 0, 0, 0, 0, 0x4a] then .statusReq
        else .statusRsp ((F.drop 2).take 14) (F.getD 16 0))) ∧
    (F.getD 1 0 = 0x04 → decodeFrame cap F = .ok
      (if F = [0x08, 0x04, 0, 0, 0, 0, 0, 0, 0, 0, 0, 0, 0, 0, 0, 0, 0x49] then .powerReq
        else .powerRsp ((F.drop 2).take 14) (F.getD 16 0))) ∧
    (F.getD 1 0 = 0x07 → decodeFrame cap F = .ok
      (if F.getD 2 0 = 0 ∧ F.getD 3 0 = 0 then
          .memSetReq (F.getD 4 0) (F.getD 5 0) ((F.drop 6).take 10) (F.getD 16 0)
        else .memSetRsp ((F.drop 2).take 14) (F.getD 16 0))) ∧
    (F.getD 1 0 = 0x08 → decodeFrame cap F = .ok
      (if F.getD 2 0 = 0 ∧ F.getD 3 0 = 0 ∧ (F.drop 6).take 10 = List.replicate 10 0 then
          .memGetReq (F.getD 4 0) (F.getD 5 0) (F.getD 16 0)
        else .memGetRsp ((F.drop 2).take 14) (F.getD 16 0))) ∧
    (F.getD 1 0 = 0x09 → decodeFrame cap F =
      if F = [0x08, 0x09, 0, 0, 0, 0, 0, 0, 0, 0, 0, 0, 0, 0, 0, 0, 0x44] then .ok .restore else .error .noForm) ∧
    (F.getD 1 0 = 0x0a → decodeFrame cap F = .ok (.deviceEvent ((F.drop 2).take 14) (F.getD 16 0))) ∧
    (F.getD 1 0 = 0x0e → decodeFrame cap F =
      if F = [0x08, 0x0e, 0, 0, 0, 0, 0, 0, 0, 0, 0, 0, 0, 0, 0, 0, 0x3f] then .ok .activeProfileGetReq
      else if F = [0x08, 0x0e, 0, 0, 0, cap, F.getD 6 0, 0, 0, 0, 0, 0, 0, 0, 0, 0, F.getD 16 0] then
        .ok (.activeProfileGetRsp (F.getD 6 0) (F.getD 16 0))
      else .error .noForm) ∧
    (F.getD 1 0 = 0x0f → decodeFrame cap F =
      if F = [0x08, 0x0f, 0, 0, 0, 0x01, F.getD 6 0, 0, 0, 0, 0, 0, 0, 0, 0, 0, F.getD 16 0] then
        .ok (.activeProfileSet (F.getD 6 0) (F.getD 16 0))
      else .error .noForm) ∧
    (F.getD 1 0 ∉ ([0x03, 0x04, 0x07, 0x08, 0x09, 0x0a, 0x0e, 0x0f] : Bytes) → decodeFrame cap F = .error .unknownCommand)

/-! ## Steps (10_state, 70_reset_and_hazards) -/

/-- A step runs the decoded instruction: the word the host presents while no request is in flight; the frame that
`read()` returns while one is, from `RXQ` or just arriving (log 8, log 9, log 11). -/
def Obligations.StepRunsDecodedInstruction : Prop :=
  ∀ (i : Instr) (s : State),
    (∀ (w : PortWord) (r : List PortItem), s.inflight = none → s.port = .word w :: r → decode s.cfg.val.capP3 w = .ok i →
      step s = exec i { s with port := r }) ∧
    (∀ (b : Bytes) (t : State), Reads s b t → decodeFrame s.cfg.val.capP3 b = .ok i → step s = exec i t)

/-- R212: the block never halts. A step answers a next state, never a fault; the one refusal is the model's own, of an
operation word that is no serialisation of an operation, presented while no request is in flight (log 16). -/
def Obligations.StepAlwaysAnswers : Prop :=
  ∀ s : State, (∃ t, step s = .next t)
    ∨ ∃ (bs : Bytes) (r : List PortItem) (e : DecodeError),
      s.inflight = none ∧ s.port = .word (.op bs) :: r ∧ decode s.cfg.val.capP3 (.op bs) = .error e ∧ step s = .refused (.portWord e)

/-- R25, R198: after reset no entry is valid, no profile is cached, no request is in flight, and the constant tables are
the configured ones (the uninterpreted `Config.tables`: log 1, with the decided `CAP_P3`: log 2); as a first operation, `MIR_EMPTY` answers true, and `MIR_RD`
of any address and `PROF_RD` miss. -/
def Obligations.ResetStateIsEmpty : Prop :=
  (∀ a, mirrorGet State.reset.mirror a = none) ∧ State.reset.prof = none ∧ State.reset.inflight = none ∧
    State.reset.cfg = Config.tables ∧ State.reset.cfg.val.capP3 = 0x01 ∧
    exec .mirEmpty State.reset = .next { State.reset with results := [.ok (.flag true)] } ∧
    (∀ a : Byte, exec (.mirRd a) State.reset = .next { State.reset with results := [.miss (.entry a)] }) ∧
    exec .profRd State.reset = .next { State.reset with results := [.miss .prof] }

/-- R197 to R199: the reset input, at any time between two operations, also while a sequence waits in `read()`, makes
every entry and the profile cache invalid and abandons the sequence; it touches neither the tables nor the transport. It
may fall inside a turn of a sequence: after the read of a byte string, which is then gone, or after the call that the host
makes, and before anything is written or returned. It may fall between two turns, the rest of `RXQ` staying unread. An
operation is atomic: a reset falls before it. How a reset is presented, and that what has been written and returned stays
recorded, is the model's (log 8, log 12). -/
def Obligations.ResetClearsBlockOnly : Prop :=
  (∀ (s : State) (r : List PortItem), s.port = .reset :: r →
    ∃ m, step s = .next { s with mirror := m, prof := none, inflight := none, port := r } ∧ ∀ a, mirrorGet m a = none) ∧
  (∀ (s t : State) (b : Bytes) (r : List PortItem), s.port = .resetInTurn :: r → Reads { s with port := r } b t →
    ∃ m, step s = .next { t with mirror := m, prof := none, inflight := none } ∧ ∀ a, mirrorGet m a = none) ∧
  (∀ (s : State) (c : HostCall) (r : List PortItem), s.inflight = none → s.port = .resetInTurn :: .call c :: r →
    ∃ m, step s = .next { s with mirror := m, prof := none, port := r } ∧ ∀ a, mirrorGet m a = none) ∧
  (∀ (s : State) (bs : Bytes) (r : List PortItem), s.inflight = none → s.port = .resetInTurn :: .word (.op bs) :: r →
    ∃ m, step s = .next { s with mirror := m, prof := none, port := .word (.op bs) :: r } ∧ ∀ a, mirrorGet m a = none) ∧
  ∀ (s : State) (x : RxItem) (q : List RxItem) (r : List PortItem), s.inflight.isSome = true → s.rxq = x :: q →
    s.port = .readFirst :: .reset :: r →
    ∃ (t : State) (m : List Host.Cell), step s = .next t ∧ t.rxq = q
      ∧ step t = .next { t with mirror := m, prof := none, inflight := none, port := r } ∧ ∀ a, mirrorGet m a = none

/-- R20: no step changes the constant tables. -/
def Obligations.TablesNeverChange : Prop :=
  ∀ s t : State, step s = .next t → t.cfg = s.cfg

/-- 10_state section 2, 45_mirror section 5 (the spec's own inferences): valid bits are cleared all at once or not at
all. A step after which some entry that was valid is invalid leaves no entry valid. -/
def Obligations.ValidBitsClearTogether : Prop :=
  ∀ (s t : State) (a : Nat), step s = .next t → (mirrorGet s.mirror a).isSome = true → mirrorGet t.mirror a = none →
    ∀ b, mirrorGet t.mirror b = none

/-- The invariant every step keeps, from every state that has it: the mirror has its canonical form (addresses strictly
rising, below 256: R14), every frame written is valid (R96), and a sequence in flight carries a window within the address
space or a write map that has passed the span check (R163, R165). -/
def Obligations.StepKeepsInvariant : Prop :=
  ∀ s t : State, Inv s → step s = .next t → Inv t

/-- The reset state has the invariant. -/
def Obligations.ResetHasInvariant : Prop := Inv State.reset

/-- R157, R155, R22: a step writes at most one frame, a valid one; the host is then suspended in `read()`, with one request
in flight and no result handed over. -/
def Obligations.OneRequestInFlight : Prop :=
  ∀ s t : State, step s = .next t →
    t.tx = s.tx ∨ ∃ F, t.tx = s.tx ++ [F] ∧ ValidFrame F ∧ t.inflight.isSome = true ∧ t.results = s.results

/-- R157, R203: while a request is in flight and `read()` has nothing to return, a step changes nothing: the host issues
neither an operation, nor a frame, nor a sequence, and no timeout ends the read (log 8, log 9). That what the environment
does behind an item of the host does not come either is the model's choice (log 11). -/
def Obligations.BlockedReadWaits : Prop :=
  ∀ (s : State) (k : HostSeq), s.inflight = some k → s.rxq = [] →
    (s.port = [] ∨ (∃ w r, s.port = .word w :: r) ∨ ∃ c r, s.port = .call c :: r) → step s = .next s

/-! ## Frames on the wire (46_host_sequences): requests -/

/-- R93, R91, R86, R87, R89, R94 with R160 to R170: issued with no request in flight, each request form but MEM_SET is
written to the transport as it stands, and the host waits in `read()` for its reply. That a request form issued by the
host starts the exchange that sends it is the model's reading (log 5). -/
def Obligations.RequestFormsAreSent : Prop :=
  ∀ s : State, s.inflight = none → AcceptsWrite s →
    exec .statusReq s
      = .next (afterSend s [0x08, 0x03, 0, 0, 0, 0, 0, 0, 0, 0, 0, 0, 0, 0, 0, 0, 0x4a] .isOn) ∧
    exec .powerReq s
      = .next (afterSend s [0x08, 0x04, 0, 0, 0, 0, 0, 0, 0, 0, 0, 0, 0, 0, 0, 0, 0x49] .getPower) ∧
    exec .restore s
      = .next (afterSend s [0x08, 0x09, 0, 0, 0, 0, 0, 0, 0, 0, 0, 0, 0, 0, 0, 0, 0x44] .restore) ∧
    exec .activeProfileGetReq s
      = .next (afterSend s [0x08, 0x0e, 0, 0, 0, 0, 0, 0, 0, 0, 0, 0, 0, 0, 0, 0, 0x3f] .getProfile) ∧
    (∀ p : Byte, exec (.activeProfileSet p (0x3d - p)) s
      = .next (afterSend s [0x08, 0x0f, 0, 0, 0, 0x01, p, 0, 0, 0, 0, 0, 0, 0, 0, 0, 0x3d - p] (.setProfile p))) ∧
    (∀ start length : Byte, 1 ≤ length.toNat → length.toNat ≤ 10 → start.toNat + length.toNat ≤ 256 →
      exec (.memGetReq start length (0x45 - start - length)) s
        = .next (afterSend s [0x08, 0x08, 0, 0, start, length, 0, 0, 0, 0, 0, 0, 0, 0, 0, 0, 0x45 - start - length]
            (.memRead start length.toNat)))

/-- R165: a MEM_SET request issued with no request in flight is a `MemWrite` of its window: the host writes the STATUS
request, not the MEM_SET frame, and holds the write map until the status is known (log 5). A window of no entry or of more
than ten is `InvalidWriteSpan`, and one past 0xff `AddressOverflow`, before any frame (log 6, log 20). -/
def Obligations.MemSetAsksStatusFirst : Prop :=
  ∀ (start length : Byte) (d : Bytes) (k : Byte) (s : State), s.inflight = none → d.length = 10 →
    ValidFrame ([0x08, 0x07, 0, 0, start, length] ++ d ++ [k]) →
    (1 ≤ length.toNat → length.toNat ≤ 10 → start.toNat + length.toNat ≤ 256 → AcceptsWrite s →
      ∃ w : ByteMap, w.length = length.toNat
        ∧ (∀ j, j < length.toNat → (start + BitVec.ofNat 8 j, d.getD j 0) ∈ w)
        ∧ exec (.memSetReq start length d k) s
          = .next (afterSend s [0x08, 0x03, 0, 0, 0, 0, 0, 0, 0, 0, 0, 0, 0, 0, 0, 0, 0x4a] (.memSetStatus w))) ∧
    (length.toNat < 1 ∨ 10 < length.toNat →
      exec (.memSetReq start length d k) s = .next { s with results := s.results ++ [.error .invalidWriteSpan] }) ∧
    (1 ≤ length.toNat → length.toNat ≤ 10 → 256 < start.toNat + length.toNat →
      exec (.memSetReq start length d k) s = .next { s with results := s.results ++ [.refused .addressOverflow] })

/-- R155, R171: a request form issued with no request in flight starts the exchange that sends it (the model's choice:
log 5); when the transport fails the write, of the STATUS request for a MEM_SET form, no frame is recorded as written, the
sequence ends, and the `TransportError` is the result, unchanged (log 10). A request form whose checksum byte is wrong is
not sent either: it answers `ChecksumMismatch`, like any byte string given to `RXCHECK` (the model's choice: log 7). A
MEM_GET form of a window that is none is answered as `MEMGET_BUILD` answers that window (R94); that an issued frame is so
refused is the model's choice (log 6). -/
def Obligations.RequestsNotSent : Prop :=
  (∀ (info : Bytes) (r : List WriteAnswer) (s : State), s.inflight = none → s.writes = .fails info :: r →
    ∀ i : Instr, (i = .statusReq ∨ i = .powerReq ∨ i = .restore ∨ i = .activeProfileGetReq
      ∨ (∃ p, i = .activeProfileSet p (0x3d - p))
      ∨ (∃ a n, 1 ≤ n.toNat ∧ n.toNat ≤ 10 ∧ a.toNat + n.toNat ≤ 256 ∧ i = .memGetReq a n (0x45 - a - n))
      ∨ (∃ a n d k, 1 ≤ n.toNat ∧ n.toNat ≤ 10 ∧ a.toNat + n.toNat ≤ 256 ∧ d.length = 10
        ∧ ValidFrame ([0x08, 0x07, 0, 0, a, n] ++ d ++ [k]) ∧ i = .memSetReq a n d k)) →
      exec i s = .next { s with writes := r, results := s.results ++ [.error (.transportError info)] }) ∧
  (∀ (i : Instr) (F : Bytes) (s : State), s.inflight = none → wellFormed i = true →
    ((∃ a n d k, i = .memSetReq a n d k) ∨ (∃ a n k, i = .memGetReq a n k) ∨ ∃ p k, i = .activeProfileSet p k) →
    encode s.cfg.val.capP3 i = .wire F → (F.map BitVec.toNat).sum % 256 ≠ 0x55 →
    exec i s = .next { s with results := s.results ++ [.error .checksumMismatch] }) ∧
  (∀ (a n : Byte) (s : State), s.inflight = none →
    (n.toNat < 1 ∨ 10 < n.toNat →
      exec (.memGetReq a n (0x45 - a - n)) s = .next { s with results := s.results ++ [.refused .badLength] }) ∧
    (1 ≤ n.toNat → n.toNat ≤ 10 → 256 < a.toNat + n.toNat →
      exec (.memGetReq a n (0x45 - a - n)) s = .next { s with results := s.results ++ [.refused .addressOverflow] }))

/-- R183: a reply or an event that arrives while no sequence is reading interrupts nothing. R183 leaves open whether it
stays in the transport or is lost there; that it stays until the next `read()` is the model's choice (log 5, log 9). -/
def Obligations.UnreadFramesStayInTransport : Prop :=
  ∀ (p : Bytes) (v k : Byte) (s : State), s.inflight = none →
    exec (.statusRsp p k) s = .next { s with rxq := s.rxq ++ [.bytes ([0x08, 0x03] ++ p ++ [k])] } ∧
    exec (.powerRsp p k) s = .next { s with rxq := s.rxq ++ [.bytes ([0x08, 0x04] ++ p ++ [k])] } ∧
    exec (.memSetRsp p k) s = .next { s with rxq := s.rxq ++ [.bytes ([0x08, 0x07] ++ p ++ [k])] } ∧
    exec (.memGetRsp p k) s = .next { s with rxq := s.rxq ++ [.bytes ([0x08, 0x08] ++ p ++ [k])] } ∧
    exec (.deviceEvent p k) s = .next { s with rxq := s.rxq ++ [.bytes ([0x08, 0x0a] ++ p ++ [k])] } ∧
    exec (.activeProfileGetRsp v k) s
      = .next { s with rxq := s.rxq ++ [.bytes [0x08, 0x0e, 0, 0, 0, s.cfg.val.capP3, v, 0, 0, 0, 0, 0, 0, 0, 0, 0, k]] }

/-! ## Frames on the wire: reception -/

/-- R156, R155, R171: every byte string that `read()` returns is validated before anything else, in every sequence; the
error of the first failed test ends the sequence, and so does a `TransportError` of `read()`, unchanged, whether it stands
in `RXQ` or arrives while the sequence waits (log 9, log 11). No state of the block is written. -/
def Obligations.BadReadEndsSequence : Prop :=
  (∀ (s t : State) (b : Bytes) (e : Err), Reads s b t → validationError b = some e →
    step s = .next (afterEnd t (.error e))) ∧
  (∀ (s : State) (info : Bytes) (q : List RxItem), s.inflight.isSome = true → NoResetNext s →
    s.rxq = .fails info :: q →
    step s = .next (afterEnd { s with rxq := q, port := portAfterRead s.port } (.error (.transportError info)))) ∧
  (∀ (s : State) (info : Bytes) (r : List PortItem), s.inflight.isSome = true → s.rxq = [] →
    s.port = .readFails info :: r →
    step s = .next { s with port := r, inflight := none, results := s.results ++ [.error (.transportError info)] })

/-- R158, R183: a sequence that awaits a command drops every valid frame of another command unread, a device event of any
kind among them, and goes on waiting; nothing else changes. -/
def Obligations.OtherCommandsAreDiscarded : Prop :=
  ∀ (s t : State) (b : Bytes) (k : HostSeq) (c : Byte), Reads s b t → s.inflight = some k → validationError b = none →
    (match k with
      | .isOn => c = 0x03 | .getPower => c = 0x04 | .memRead _ _ => c = 0x08 | .scan _ _ _ => c = 0x08
      | .memSetStatus _ => c = 0x03 | .memSetAck _ => c = 0x07
      | .getProfile => False | .setProfile _ => False | .restore => False) →
    b.getD 1 0 ≠ c → step s = .next t

/-- R160, R161, R163: the reply that is awaited ends the sequence. STATUS: byte 6 as a boolean. POWER: the details at
offsets 6 to 9. MEM_GET: the data bytes if start and length are echoed, else `ProtocolMismatch`. An echo of a bare request
is a reply too, and so is a MEM_GET frame whose data bytes are all zero, which has the form of a request (R210). -/
def Obligations.AwaitedReplyEndsQuery : Prop :=
  (∀ (p : Bytes) (k : Byte) (s : State), s.inflight = some .isOn →
    (p.length = 14 → ValidFrame ([0x08, 0x03] ++ p ++ [k]) →
      exec (.statusRsp p k) s = .next (afterEnd s (.ok (.flag (decide (p.getD 4 0 ≠ 0)))))) ∧
    exec .statusReq s = .next (afterEnd s (.ok (.flag false)))) ∧
  (∀ (p : Bytes) (k : Byte) (s : State), s.inflight = some .getPower →
    (p.length = 14 → ValidFrame ([0x08, 0x04] ++ p ++ [k]) →
      exec (.powerRsp p k) s = .next (afterEnd s (.ok (.payload (.powerDetails (p.getD 4 0) (decide (p.getD 5 0 ≠ 0))
        (BitVec.ofNat 16 ((p.getD 6 0).toNat * 256 + (p.getD 7 0).toNat))))))) ∧
    exec .powerReq s = .next (afterEnd s (.ok (.payload (.powerDetails 0 false 0))))) ∧
  (∀ (p : Bytes) (k start : Byte) (length : Nat) (s : State), s.inflight = some (.memRead start length) →
    1 ≤ length → length ≤ 10 → start.toNat + length ≤ 256 →
    (p.length = 14 → ValidFrame ([0x08, 0x08] ++ p ++ [k]) →
      exec (.memGetRsp p k) s = .next (afterEnd s
        (if p.getD 2 0 = start ∧ (p.getD 3 0).toNat = length then .ok (.bytes ((p.drop 4).take length))
          else .error .protocolMismatch))) ∧
    ∀ a n : Byte, exec (.memGetReq a n (0x45 - a - n)) s = .next (afterEnd s
      (if a = start ∧ n.toNat = length then .ok (.bytes (List.replicate length 0)) else .error .protocolMismatch)))

/-- R165 steps 2 to 5: the STATUS reply decides the write. Off: `DeviceOff`, no frame. On: the MEM_SET request of the
write map is written, whole, and its reply awaited. Any valid MEM_SET reply ends `_mem_set`, and only then do exactly the
written pairs enter the mirror. -/
def Obligations.MemSetRepliesInTurn : Prop :=
  ∀ (p : Bytes) (k : Byte) (w : ByteMap) (lo n : Nat) (s : State), KeysDistinct w → SpanOf w lo n → p.length = 14 →
    (s.inflight = some (.memSetStatus w) → ValidFrame ([0x08, 0x03] ++ p ++ [k]) → p.getD 4 0 = 0 →
      exec (.statusRsp p k) s = .next (afterEnd s (.error .deviceOff))) ∧
    (s.inflight = some (.memSetStatus w) → ValidFrame ([0x08, 0x03] ++ p ++ [k]) → p.getD 4 0 ≠ 0 → AcceptsWrite s →
      ∃ F : Bytes, exec (.statusRsp p k) s = .next (afterSend s F (.memSetAck w))
        ∧ exec (.memsetBuild w) s = .next { s with results := s.results ++ [.ok (.bytes F)] }) ∧
    (s.inflight = some (.memSetAck w) → ValidFrame ([0x08, 0x07] ++ p ++ [k]) →
      ∃ m, exec (.memSetRsp p k) s
          = .next { s with mirror := m, inflight := none, results := s.results ++ [.ok .unit] }
        ∧ (∀ a v : Byte, (a, v) ∈ w → mirrorGet m a.toNat = some v)
        ∧ ∀ a : Nat, (∀ e ∈ w, e.1.toNat ≠ a) → mirrorGet m a = mirrorGet s.mirror a)

/-- R167: the profile getter. With a cached profile it answers it and sends no frame; without, it sends the bare request;
a `CurrentActiveProfile` frame is the reply, cached and returned; an echo of the bare request is discarded. -/
def Obligations.ProfileGetterCaches : Prop :=
  (∀ (s : State) (r : List PortItem), s.inflight = none → s.port = .call .getProfile :: r →
    (∀ p, s.prof = some p → step s = .next { s with results := s.results ++ [.ok (.byte p)], port := r }) ∧
    (s.prof = none → AcceptsWrite s → step s = .next (afterSend { s with port := r }
      [0x08, 0x0e, 0, 0, 0, 0, 0, 0, 0, 0, 0, 0, 0, 0, 0, 0, 0x3f] .getProfile))) ∧
  (∀ (p : Byte) (s : State), s.inflight = some .getProfile →
    exec (.activeProfileGetRsp p (0x3f - s.cfg.val.capP3 - p)) s
      = .next { s with prof := some p, inflight := none, results := s.results ++ [.ok (.byte p)] } ∧
    exec .activeProfileGetReq s = .next s)

/-- R168, R159: in the profile setter a `SetActiveProfile` echo of the requested profile updates the cache; of another
profile it is `UnexpectedResponse`, and the cache is unchanged. -/
def Obligations.ProfileEchoUpdatesCache : Prop :=
  ∀ (p q : Byte) (s : State), s.inflight = some (.setProfile p) →
    exec (.activeProfileSet q (0x3d - q)) s = .next (if q = p then
      { s with prof := some p, inflight := none, results := s.results ++ [.ok .unit] }
      else afterEnd s (.error .unexpectedResponse))

/-- R159: while a profile sequence waits, every error of `PARSE` is fatal, a STATUS, MEM_GET or MEM_SET frame and an event
of an unknown kind among them; a payload of a variant not awaited is discarded. -/
def Obligations.VariantLoopErrorsAreFatal : Prop :=
  ∀ (s t : State) (b : Bytes) (k : HostSeq), Reads s b t → s.inflight = some k →
    (k = .getProfile ∨ ∃ p, k = .setProfile p) →
    (∀ e : Err, exec (.parse b) t = .next { t with results := t.results ++ [.error e] } →
      step s = .next (afterEnd t (.error e))) ∧
    (∀ v : Payload, exec (.parse b) t = .next { t with results := t.results ++ [.ok (.payload v)] } →
      (k = .getProfile → ∀ p, v ≠ .currentActiveProfile p) → (∀ q, k = .setProfile q → ∀ p, v ≠ .setActiveProfile p) →
      step s = .next t)

/-- R170, R208: `restore` reads one frame. The request's own echo clears the mirror and the profile cache; any other valid
frame, a device event among them, is `UnexpectedResponse`, and clears nothing. -/
def Obligations.RestoreNeedsExactEcho : Prop :=
  (∀ s : State, s.inflight = some .restore →
    ∃ m, exec .restore s
        = .next { s with mirror := m, prof := none, inflight := none, results := s.results ++ [.ok .unit] }
      ∧ ∀ a, mirrorGet m a = none) ∧
  ∀ (s t : State) (b : Bytes), Reads s b t → s.inflight = some .restore → validationError b = none →
    b ≠ [0x08, 0x09, 0, 0, 0, 0, 0, 0, 0, 0, 0, 0, 0, 0, 0, 0, 0x44] →
    step s = .next (afterEnd t (.error .unexpectedResponse))

/-- R183, R158, R159, R102, R208: a valid device event in flight. Where a command is awaited it is dropped unparsed; in a
profile sequence an event of a known kind is dropped and one of an unknown kind ends the sequence; `restore` fails. -/
def Obligations.DeviceEventInFlight : Prop :=
  ∀ (p : Bytes) (c : Byte) (k : HostSeq) (s : State), s.inflight = some k → p.length = 14 →
    ValidFrame ([0x08, 0x0a] ++ p ++ [c]) →
    exec (.deviceEvent p c) s = .next (match k with
      | .getProfile => if p.getD 4 0 = s.cfg.val.ekUnknown1 ∨ p.getD 4 0 = s.cfg.val.ekDpiMode
          ∨ p.getD 4 0 = s.cfg.val.ekPower then s else afterEnd s (.error .unknownDeviceEvent)
      | .setProfile _ => if p.getD 4 0 = s.cfg.val.ekUnknown1 ∨ p.getD 4 0 = s.cfg.val.ekDpiMode
          ∨ p.getD 4 0 = s.cfg.val.ekPower then s else afterEnd s (.error .unknownDeviceEvent)
      | .restore => afterEnd s (.error .unexpectedResponse)
      | .isOn => s | .getPower => s | .memRead _ _ => s | .scan _ _ _ => s | .memSetStatus _ => s | .memSetAck _ => s)

/-- R202: a MEM_SET frame is written only in a step in which the host has just read a valid STATUS reply that says on; the
frame is that of the write map held by the sequence. -/
def Obligations.MemSetOnlyAfterStatusOn : Prop :=
  ∀ (s t : State) (F : Bytes), step s = .next t → t.tx = s.tx ++ [F] → F.getD 1 0 = 0x07 →
    ∃ (w : ByteMap) (b : Bytes) (u : State), s.inflight = some (.memSetStatus w) ∧ Reads s b u
      ∧ ValidFrame b ∧ b.getD 1 0 = 0x03 ∧ b.getD 6 0 ≠ 0
      ∧ exec (.memsetBuild w) s = .next { s with results := s.results ++ [.ok (.bytes F)] }

/-! ## Whole sequences (46_host_sequences) -/

/-- R162: `read_settings` against a device that echoes start and length in each of its twenty replies: the twenty MEM_GET
requests go out in order, and the entries 0x00 to 0xc7 take the data bytes; the others, the profile cache and everything
else are as before. -/
def Obligations.ReadSettingsFillsMirror : Prop :=
  ∀ (s : State) (reply : Nat → Bytes) (r : List PortItem),
    s.inflight = none → s.rxq = [] → s.writes = [] →
    s.port = .call .readSettings :: (List.range 20).map (fun k => .arrives (reply k)) ++ r →
    (∀ k, k < 20 → ValidFrame (reply k) ∧ (reply k).getD 1 0 = 0x08 ∧ ((reply k).getD 4 0).toNat = 10 * k
      ∧ (reply k).getD 5 0 = 10) →
    ∃ m, Host.Core.run Sys2Proof.core 21 s = .next { s with
        mirror := m
        tx := s.tx ++ (List.range 20).map (fun k => [0x08, 0x08, 0, 0, BitVec.ofNat 8 (10 * k), 0x0a,
          0, 0, 0, 0, 0, 0, 0, 0, 0, 0, 0x3b - BitVec.ofNat 8 (10 * k)])
        results := s.results ++ [.ok .unit]
        port := r }
      ∧ (∀ a, a < 200 → mirrorGet m a = some ((reply (a / 10)).getD (6 + a % 10) 0))
      ∧ ∀ a, 200 ≤ a → mirrorGet m a = mirrorGet s.mirror a

/-- R165, R144: `_mem_set` of a write map that fails the span check ends before any frame. Against a device that reports
on and answers, the STATUS request and the MEM_SET request go out and exactly the written pairs enter the mirror; against
one that reports off, only the STATUS request goes out and the result is `DeviceOff`. -/
def Obligations.MemSetExchange : Prop :=
  ∀ (s : State) (w : ByteMap) (st ack : Bytes) (r : List PortItem),
    s.inflight = none → s.rxq = [] → s.writes = [] → KeysDistinct w →
    ((¬ ∃ lo n, SpanOf w lo n) → s.port = .call (.memSet w) :: r →
      step s = .next { s with results := s.results ++ [.error .invalidWriteSpan], port := r }) ∧
    ((∃ lo n, SpanOf w lo n) → ValidFrame st → st.getD 1 0 = 0x03 → st.getD 6 0 = 0 →
      s.port = .call (.memSet w) :: .arrives st :: r →
      Host.Core.run Sys2Proof.core 2 s = .next { s with
        tx := s.tx ++ [[0x08, 0x03, 0, 0, 0, 0, 0, 0, 0, 0, 0, 0, 0, 0, 0, 0, 0x4a]]
        results := s.results ++ [.error .deviceOff]
        port := r }) ∧
    ((∃ lo n, SpanOf w lo n) → ValidFrame st → st.getD 1 0 = 0x03 → st.getD 6 0 ≠ 0 →
      ValidFrame ack → ack.getD 1 0 = 0x07 →
      s.port = .call (.memSet w) :: .arrives st :: .arrives ack :: r →
      ∃ (m : List Host.Cell) (F : Bytes),
        Host.Core.run Sys2Proof.core 3 s = .next { s with
          mirror := m
          tx := s.tx ++ [[0x08, 0x03, 0, 0, 0, 0, 0, 0, 0, 0, 0, 0, 0, 0, 0, 0, 0x4a], F]
          results := s.results ++ [.ok .unit]
          port := r }
        ∧ exec (.memsetBuild w) s = .next { s with results := s.results ++ [.ok (.bytes F)] }
        ∧ (∀ a v : Byte, (a, v) ∈ w → mirrorGet m a.toNat = some v)
        ∧ ∀ a : Nat, (∀ e ∈ w, e.1.toNat ≠ a) → mirrorGet m a = mirrorGet s.mirror a)

/-- R164, R169, R173, R162: a getter (of a scalar field, of a mode's DPI, of a mode's LED colour) whose read does not miss
ends at once with it and no frame; on a miss, and only then, it starts `read_settings` at 0x00 with the nineteen later
windows to come. Each reply of the scan fills its window and asks for the next; the last one's fill is followed by the
getter's read, once, whose result ends the sequence, a second miss too. -/
def Obligations.GetterFillsOnMissOnly : Prop :=
  (∀ (s : State) (c : HostCall) (g : AfterScan) (r : List PortItem), GetterOf c g → s.inflight = none → AcceptsWrite s →
    s.port = .call c :: r →
    ∃ x : Result, GetterReads s g x ∧
      ((∀ a, x ≠ .miss a) → step s = .next { s with results := s.results ++ [x], port := r }) ∧
      ((∃ a, x = .miss a) → step s = .next (afterSend { s with port := r }
        [0x08, 0x08, 0, 0, 0, 0x0a, 0, 0, 0, 0, 0, 0, 0, 0, 0, 0, 0x3b]
        (.scan 0x00 [0x0a, 0x14, 0x1e, 0x28, 0x32, 0x3c, 0x46, 0x50, 0x5a, 0x64, 0x6e, 0x78, 0x82, 0x8c, 0x96, 0xa0, 0xaa,
          0xb4, 0xbe] g)))) ∧
  ∀ (s t : State) (b : Bytes) (a : Byte) (rest : Bytes) (g : AfterScan), Reads s b t →
    s.inflight = some (.scan a rest g) → ValidFrame b → b.getD 1 0 = 0x08 → b.getD 4 0 = a → b.getD 5 0 = 10 →
    a.toNat + 10 ≤ 256 →
    ∃ m, (∀ j, j < 10 → mirrorGet m (a.toNat + j) = some (b.getD (6 + j) 0))
      ∧ (∀ c, c < a.toNat ∨ a.toNat + 10 ≤ c → mirrorGet m c = mirrorGet s.mirror c)
      ∧ (∀ (a' : Byte) (rest' : Bytes), rest = a' :: rest' → a'.toNat + 10 ≤ 256 → AcceptsWrite s →
        step s = .next (afterSend { t with mirror := m }
          [0x08, 0x08, 0, 0, a', 0x0a, 0, 0, 0, 0, 0, 0, 0, 0, 0, 0, 0x3b - a'] (.scan a' rest' g)))
      ∧ (rest = [] → ∃ x : Result, GetterReads { t with mirror := m } g x ∧
        step s = .next { t with mirror := m, inflight := none, results := s.results ++ [x] })

/-- R169, R172, R166, R185: a setter checks its value before any frame, then starts the write of its field pair with the
STATUS request. DPI of a mode: the range, then divisibility, then the mode. A scalar field: its legal set, `OutOfRange`
outside it. LED colour of a mode: the excluded triples, then the mode. The legal sets are the tables' (log 15). -/
def Obligations.SettersCheckBeforeFrames : Prop :=
  (∀ (s : State) (m : Byte) (d : BitVec 32) (r : List PortItem), s.inflight = none → AcceptsWrite s →
    s.port = .call (.setDpi m d) :: r →
    (d.toNat < 50 ∨ 26000 < d.toNat →
      step s = .next { s with results := s.results ++ [.error .outOfRange], port := r }) ∧
    (50 ≤ d.toNat → d.toNat ≤ 26000 → d.toNat % 50 ≠ 0 →
      step s = .next { s with results := s.results ++ [.error .notAMultiple], port := r }) ∧
    (50 ≤ d.toNat → d.toNat ≤ 26000 → d.toNat % 50 = 0 → 3 < m.toNat →
      step s = .next { s with results := s.results ++ [.refused .badMode], port := r }) ∧
    (50 ≤ d.toNat → d.toNat ≤ 26000 → d.toNat % 50 = 0 → m.toNat ≤ 3 →
      ∃ (raw0 raw1 raw2 : Byte) (w : ByteMap),
        exec (.dpiEnc d) s = .next { s with results := s.results ++ [.ok (.bytes [raw0, raw1, raw2])] }
        ∧ exec (.fieldPair (.triple m .dpi raw0 raw1 raw2)) s = .next { s with results := s.results ++ [.ok (.map w)] }
        ∧ step s = .next (afterSend { s with port := r }
          [0x08, 0x03, 0, 0, 0, 0, 0, 0, 0, 0, 0, 0, 0, 0, 0, 0, 0x4a] (.memSetStatus w)))) ∧
  (∀ (s : State) (f : SettableField) (v : Byte) (r : List PortItem), s.inflight = none → AcceptsWrite s →
    s.port = .call (.setField f v) :: r →
    ∃ legal : Bytes, s.cfg.val.setterDomain[fieldIndex (settable f)]? = some legal ∧
    (v ∉ legal → step s = .next { s with results := s.results ++ [.error .outOfRange], port := r }) ∧
    (v ∈ legal → ∃ w : ByteMap,
      exec (.fieldPair (.scalar (BitVec.ofNat 8 (fieldIndex (settable f))) v)) s
        = .next { s with results := s.results ++ [.ok (.map w)] }
      ∧ step s = .next (afterSend { s with port := r }
        [0x08, 0x03, 0, 0, 0, 0, 0, 0, 0, 0, 0, 0, 0, 0, 0, 0, 0x4a] (.memSetStatus w)))) ∧
  (∀ (s : State) (m red green blue : Byte) (r : List PortItem), s.inflight = none → AcceptsWrite s →
    s.port = .call (.setLed m red green blue) :: r →
    ([red, green, blue] ∈ s.cfg.val.ledExcluded →
      step s = .next { s with results := s.results ++ [.error .outOfRange], port := r }) ∧
    ([red, green, blue] ∉ s.cfg.val.ledExcluded → 3 < m.toNat →
      step s = .next { s with results := s.results ++ [.refused .badMode], port := r }) ∧
    ([red, green, blue] ∉ s.cfg.val.ledExcluded → m.toNat ≤ 3 → ∃ w : ByteMap,
      exec (.fieldPair (.triple m .led red green blue)) s = .next { s with results := s.results ++ [.ok (.map w)] }
      ∧ step s = .next (afterSend { s with port := r }
        [0x08, 0x03, 0, 0, 0, 0, 0, 0, 0, 0, 0, 0, 0, 0, 0, 0, 0x4a] (.memSetStatus w))))

/-- R171, R186: a step that hands over a result other than `Ok` leaves the profile cache as it was, and the mirror too; but
while a scan is in flight the current window's entries may have been merged (its last reply was good and the getter's read
then missed or failed, or the next window's write failed), and every other entry reads as before: no window merged earlier
is undone. -/
def Obligations.FailuresWriteNoState : Prop :=
  ∀ (s t : State) (x : Result), step s = .next t → t.results = s.results ++ [x] → (∀ v, x ≠ .ok v) →
    t.prof = s.prof ∧
    ((∀ a rest g, s.inflight ≠ some (.scan a rest g)) → t.mirror = s.mirror) ∧
    ∀ a rest g, s.inflight = some (.scan a rest g) →
      ∀ c, c < a.toNat ∨ a.toNat + 10 ≤ c → mirrorGet t.mirror c = mirrorGet s.mirror c
end

