-- ==== Sys2Proof/Laws/Encoding.lean ====
section
/-! SUPPORT. What the operand readers do on what the encoder writes, and the fields of the frames the encoder writes. -/

namespace Sys2Proof

open Machine

theorem be16_toNat (h l : Byte) : (be16 h l).toNat = h.toNat * 256 + l.toNat := by
  have := l.isLt
  rw [be16, BitVec.toNat_append, Nat.shiftLeft_eq, Nat.mul_comm, ← Nat.two_pow_add_eq_or_of_lt l.isLt]

theorem be16_hi_lo (v : BitVec 16) : be16 (hi16 v) (lo16 v) = v := by
  apply BitVec.eq_of_toNat_eq
  have := v.isLt
  rw [be16_toNat, hi16, lo16, BitVec.extractLsb'_toNat, BitVec.extractLsb'_toNat, Nat.shiftRight_eq_div_pow]
  simp
  omega

@[simp] theorem takeByte_cons (b : Byte) (r : Bytes) : takeByte (b :: r) = .ok (b, r) := rfl

/-- A byte string of any length comes back from its bytes (R77). -/
theorem takeSeq_seqBytes (s r : Bytes) : takeSeq (seqBytes s ++ r) = .ok (s, r) := by
  induction s with
  | nil => cases r <;> rfl
  | cons b s ih => simp [seqBytes, takeSeq, ih, Except.map]

theorem natOf_natDigits (fuel n : Nat) (h : n ≤ fuel) : natOf (natDigits fuel n) = n := by
  induction fuel generalizing n with
  | zero => simp [natDigits, natOf]; omega
  | succ fuel ih =>
    unfold natDigits
    split
    · subst_vars; rfl
    · simp only [natOf, BitVec.toNat_ofNat, ih (n / 256) (by omega)]
      omega

/-- An unsigned integer of any size comes back from its bytes (R94). -/
theorem takeNat_natBytes (n : Nat) (r : Bytes) : takeNat (natBytes n ++ r) = .ok (n, r) := by
  rw [takeNat, natBytes, takeSeq_seqBytes]
  show Except.ok (natOf (natDigits n n), r) = _
  rw [natOf_natDigits n n (Nat.le_refl n)]

theorem takeEntries_mapBytes (m : ByteMap) (r : Bytes) : takeEntries (mapBytes m ++ r) = .ok (m, r) := by
  induction m with
  | nil => rcases r with _ | ⟨a, _ | ⟨v, r⟩⟩ <;> rfl
  | cons e m ih => simp [mapBytes, takeEntries, ih, Except.map]

theorem takeMap_mapBytes (m : ByteMap) (hm : distinctKeys m = true) (r : Bytes) :
    takeMap (mapBytes m ++ r) = .ok (m, r) := by
  simp [takeMap, takeEntries_mapBytes, bind, Except.bind, hm]

theorem takeWord32_word32Bytes (v : BitVec 32) (r : Bytes) : takeWord32 (word32Bytes v ++ r) = .ok (v, r) := by
  have h : be32 (v.extractLsb' 24 8) (v.extractLsb' 16 8) (v.extractLsb' 8 8) (v.extractLsb' 0 8) = v := by
    refine BitVec.eq_of_getLsbD_eq fun i hi => ?_
    simp only [be32, BitVec.getLsbD_append, BitVec.getLsbD_extractLsb']
    by_cases h0 : i < 8
    · simp [h0]
    · by_cases h1 : i < 16
      · simp [h0, show i - 8 < 8 by omega, show 8 + (i - 8) = i by omega]
      · by_cases h2 : i < 24
        · simp [h0, show ¬ i - 8 < 8 by omega, show i - 8 - 8 < 8 by omega, show 16 + (i - 8 - 8) = i by omega]
        · simp [h0, show ¬ i - 8 < 8 by omega, show ¬ i - 8 - 8 < 8 by omega, show i - 8 - 8 - 8 < 8 by omega,
            show 24 + (i - 8 - 8 - 8) = i by omega]
  show Except.ok (be32 _ _ _ _, r) = _
  rw [h]

theorem takePayload_payloadBytes (v : Payload) (r : Bytes) : takePayload (payloadBytes v ++ r) = .ok (v, r) := by
  cases v with
  | deviceEvent k => cases k <;> rfl
  | powerDetails b f m =>
    cases f <;>
    · show Except.ok (Payload.powerDetails b _ (be16 (hi16 m) (lo16 m)), r) = _
      rw [be16_hi_lo]
  | _ => rfl

theorem takePairOperand_bytes (o : PairOperand) (r : Bytes) : takePairOperand (pairOperandBytes o ++ r) = .ok (o, r) := by
  cases o with
  | scalar n v => rfl
  | triple m g b0 b1 b2 => cases g <;> rfl

theorem takeFieldOperand_bytes (o : FieldOperand) (r : Bytes) :
    takeFieldOperand (fieldOperandBytes o ++ r) = .ok (o, r) := by
  cases o with
  | scalar n => rfl
  | triple m g => cases g <;> rfl

theorem ended_nil (i : Instr) : ended i [] = .ok i := rfl

theorem op1_of_take {α : Type} {take : Bytes → Except DecodeError (α × Bytes)} {a : α} {bs : Bytes} (f : α → Instr)
    (h : take bs = .ok (a, [])) : op1 take f bs = .ok (f a) := by
  simp [op1, h, bind, Except.bind, ended_nil]

/-! ## Frames -/

theorem windowOk_iff (a n : Nat) : windowOk a n = true ↔ 1 ≤ n ∧ n ≤ 10 ∧ a + n ≤ 256 := by
  rw [windowOk, Bool.and_eq_true, Bool.and_eq_true, decide_eq_true_eq, decide_eq_true_eq, decide_eq_true_eq, and_assoc]
  rfl

theorem decodeFrame_frameBytes (cap c : Byte) (p : Bytes) (k : Byte) (hp : p.length = 14) :
    decodeFrame cap (frameBytes c p k) = decodeForm cap c p k := by
  have h16 : byteAt (frameBytes c p k) 16 = k := by simp [byteAt, frameBytes, hp]
  have hps : paramsOf (frameBytes c p k) = p := by simp [paramsOf, frameBytes, Config.nParam, ← hp]
  unfold decodeFrame
  rw [if_neg (by simp [frameBytes, hp, Config.frameLen]), if_neg (by simp [byteAt, frameBytes]), h16, hps]
  rfl

/-- A 17-byte string with the header is the frame of its command, parameters and checksum byte. -/
theorem frameBytes_of_frame (F : Bytes) (hl : F.length = 17) (h0 : byteAt F 0 = Config.header) :
    F = frameBytes (byteAt F 1) (paramsOf F) (byteAt F 16) ∧ (paramsOf F).length = 14 := by
  rcases F with _ | ⟨a, _ | ⟨b, F⟩⟩ <;> simp only [List.length_cons, List.length_nil] at hl <;> try omega
  have hF : F.length = 15 := by omega
  have h0 : a = Config.header := h0
  refine ⟨?_, by simp [paramsOf, Config.nParam, hF]⟩
  subst h0
  have hlast : byteAt (Config.header :: b :: F) 16 = F[14]'(by omega) := by simp [byteAt, hF]
  rw [hlast]
  show Config.header :: b :: F = Config.header :: b :: (F.take 14 ++ [F[14]])
  rw [List.take_append_getElem, List.take_of_length_le (by omega)]

theorem length_memSetParams (start n : Byte) (d : Bytes) (hd : d.length = 10) :
    (memSetParams start n d).length = 14 := by
  simp [memSetParams, hd]

theorem length_memGetParams (start n : Byte) : (memGetParams start n).length = 14 := rfl

theorem isMemSetReq_memSetParams (start n : Byte) (d : Bytes) : isMemSetReq (memSetParams start n d) = true := by
  simp [isMemSetReq, memSetParams, startOf, lengthOf, paramData]

theorem isMemGetReq_memGetParams (start n : Byte) : isMemGetReq (memGetParams start n) = true := by
  simp [isMemGetReq, memGetParams, startOf, lengthOf]

end Sys2Proof
end

