-- ==== Sys2Proof/Laws/State.lean ====
section
/-! SUPPORT. One lemma per field per update of the state, true by rfl, so that no proof unfolds a record update. -/

namespace Sys2Proof.Machine

variable (s : State)

@[simp] theorem State.post_cfg (r : Result) : (s.post r).cfg = s.cfg := rfl
@[simp] theorem State.post_mirror (r : Result) : (s.post r).mirror = s.mirror := rfl
@[simp] theorem State.post_prof (r : Result) : (s.post r).prof = s.prof := rfl
@[simp] theorem State.post_inflight (r : Result) : (s.post r).inflight = s.inflight := rfl
@[simp] theorem State.post_rxq (r : Result) : (s.post r).rxq = s.rxq := rfl
@[simp] theorem State.post_writes (r : Result) : (s.post r).writes = s.writes := rfl
@[simp] theorem State.post_tx (r : Result) : (s.post r).tx = s.tx := rfl
@[simp] theorem State.post_results (r : Result) : (s.post r).results = s.results ++ [r] := rfl
@[simp] theorem State.post_port (r : Result) : (s.post r).port = s.port := rfl

@[simp] theorem State.finish_cfg (r : Result) : (s.finish r).cfg = s.cfg := rfl
@[simp] theorem State.finish_mirror (r : Result) : (s.finish r).mirror = s.mirror := rfl
@[simp] theorem State.finish_prof (r : Result) : (s.finish r).prof = s.prof := rfl
@[simp] theorem State.finish_inflight (r : Result) : (s.finish r).inflight = none := rfl
@[simp] theorem State.finish_rxq (r : Result) : (s.finish r).rxq = s.rxq := rfl
@[simp] theorem State.finish_writes (r : Result) : (s.finish r).writes = s.writes := rfl
@[simp] theorem State.finish_tx (r : Result) : (s.finish r).tx = s.tx := rfl
@[simp] theorem State.finish_results (r : Result) : (s.finish r).results = s.results ++ [r] := rfl
@[simp] theorem State.finish_port (r : Result) : (s.finish r).port = s.port := rfl

@[simp] theorem State.enqueue_cfg (x : RxItem) : (s.enqueue x).cfg = s.cfg := rfl
@[simp] theorem State.enqueue_mirror (x : RxItem) : (s.enqueue x).mirror = s.mirror := rfl
@[simp] theorem State.enqueue_prof (x : RxItem) : (s.enqueue x).prof = s.prof := rfl
@[simp] theorem State.enqueue_inflight (x : RxItem) : (s.enqueue x).inflight = s.inflight := rfl
@[simp] theorem State.enqueue_rxq (x : RxItem) : (s.enqueue x).rxq = s.rxq ++ [x] := rfl
@[simp] theorem State.enqueue_writes (x : RxItem) : (s.enqueue x).writes = s.writes := rfl
@[simp] theorem State.enqueue_tx (x : RxItem) : (s.enqueue x).tx = s.tx := rfl
@[simp] theorem State.enqueue_results (x : RxItem) : (s.enqueue x).results = s.results := rfl
@[simp] theorem State.enqueue_port (x : RxItem) : (s.enqueue x).port = s.port := rfl

@[simp] theorem State.expect_cfg (a : WriteAnswer) : (s.expect a).cfg = s.cfg := rfl
@[simp] theorem State.expect_mirror (a : WriteAnswer) : (s.expect a).mirror = s.mirror := rfl
@[simp] theorem State.expect_prof (a : WriteAnswer) : (s.expect a).prof = s.prof := rfl
@[simp] theorem State.expect_inflight (a : WriteAnswer) : (s.expect a).inflight = s.inflight := rfl
@[simp] theorem State.expect_rxq (a : WriteAnswer) : (s.expect a).rxq = s.rxq := rfl
@[simp] theorem State.expect_writes (a : WriteAnswer) : (s.expect a).writes = s.writes ++ [a] := rfl
@[simp] theorem State.expect_tx (a : WriteAnswer) : (s.expect a).tx = s.tx := rfl
@[simp] theorem State.expect_results (a : WriteAnswer) : (s.expect a).results = s.results := rfl
@[simp] theorem State.expect_port (a : WriteAnswer) : (s.expect a).port = s.port := rfl

@[simp] theorem State.applyReset_cfg : (s.applyReset).cfg = s.cfg := rfl
@[simp] theorem State.applyReset_mirror : (s.applyReset).mirror = [] := rfl
@[simp] theorem State.applyReset_prof : (s.applyReset).prof = none := rfl
@[simp] theorem State.applyReset_inflight : (s.applyReset).inflight = none := rfl
@[simp] theorem State.applyReset_rxq : (s.applyReset).rxq = s.rxq := rfl
@[simp] theorem State.applyReset_writes : (s.applyReset).writes = s.writes := rfl
@[simp] theorem State.applyReset_tx : (s.applyReset).tx = s.tx := rfl
@[simp] theorem State.applyReset_results : (s.applyReset).results = s.results := rfl
@[simp] theorem State.applyReset_port : (s.applyReset).port = s.port := rfl

@[simp] theorem State.cacheProfile_cfg (p : Byte) : (s.cacheProfile p).cfg = s.cfg := rfl
@[simp] theorem State.cacheProfile_mirror (p : Byte) : (s.cacheProfile p).mirror = s.mirror := rfl
@[simp] theorem State.cacheProfile_prof (p : Byte) : (s.cacheProfile p).prof = some p := rfl
@[simp] theorem State.cacheProfile_inflight (p : Byte) : (s.cacheProfile p).inflight = s.inflight := rfl
@[simp] theorem State.cacheProfile_rxq (p : Byte) : (s.cacheProfile p).rxq = s.rxq := rfl
@[simp] theorem State.cacheProfile_writes (p : Byte) : (s.cacheProfile p).writes = s.writes := rfl
@[simp] theorem State.cacheProfile_tx (p : Byte) : (s.cacheProfile p).tx = s.tx := rfl
@[simp] theorem State.cacheProfile_results (p : Byte) : (s.cacheProfile p).results = s.results := rfl
@[simp] theorem State.cacheProfile_port (p : Byte) : (s.cacheProfile p).port = s.port := rfl

@[simp] theorem State.clearProfile_cfg : (s.clearProfile).cfg = s.cfg := rfl
@[simp] theorem State.clearProfile_mirror : (s.clearProfile).mirror = s.mirror := rfl
@[simp] theorem State.clearProfile_prof : (s.clearProfile).prof = none := rfl
@[simp] theorem State.clearProfile_inflight : (s.clearProfile).inflight = s.inflight := rfl
@[simp] theorem State.clearProfile_rxq : (s.clearProfile).rxq = s.rxq := rfl
@[simp] theorem State.clearProfile_writes : (s.clearProfile).writes = s.writes := rfl
@[simp] theorem State.clearProfile_tx : (s.clearProfile).tx = s.tx := rfl
@[simp] theorem State.clearProfile_results : (s.clearProfile).results = s.results := rfl
@[simp] theorem State.clearProfile_port : (s.clearProfile).port = s.port := rfl

end Sys2Proof.Machine
end

