-- ==== Sys2Proof/Laws/Ops.lean ====
section
/-! SUPPORT. What the shared operations can do, once each. -/

namespace Sys2Proof.Machine

/-! ## Results -/

@[simp] theorem Res.bind_ok {α β : Type} (a : α) (f : α → Res β) : (Res.ok a).bind f = f a := rfl
@[simp] theorem Res.bind_error {α β : Type} (e : Err) (f : α → Res β) : (Res.error e).bind f = .error e := rfl
@[simp] theorem Res.bind_miss {α β : Type} (m : MissAt) (f : α → Res β) : (Res.miss m).bind f = .miss m := rfl
@[simp] theorem Res.bind_refused {α β : Type} (r : Reason) (f : α → Res β) : (Res.refused r).bind f = .refused r := rfl
@[simp] theorem Res.map_ok {α β : Type} (f : α → β) (a : α) : (Res.ok a).map f = .ok (f a) := rfl
@[simp] theorem Res.map_error {α β : Type} (f : α → β) (e : Err) : (Res.error e).map f = .error e := rfl
@[simp] theorem Res.map_miss {α β : Type} (f : α → β) (m : MissAt) : (Res.miss m).map f = .miss m := rfl
@[simp] theorem Res.map_refused {α β : Type} (f : α → β) (r : Reason) : (Res.refused r).map f = .refused r := rfl

theorem Res.bind_eq_ok {α β : Type} {r : Res α} {f : α → Res β} {b : β} :
    r.bind f = .ok b ↔ ∃ a, r = .ok a ∧ f a = .ok b := by
  cases r <;> simp

theorem Res.map_eq_ok {α β : Type} {r : Res α} {f : α → β} {b : β} :
    r.map f = .ok b ↔ ∃ a, r = .ok a ∧ f a = b := by
  cases r <;> simp

/-! ## The mirror -/

theorem mirrorGet_set_self (m : List Host.Cell) (a : Nat) (v : Byte) : mirrorGet (mirrorSet m a v) a = some v := by
  induction m with
  | nil => simp [mirrorSet, mirrorGet]
  | cons c m ih =>
    obtain ⟨b, w⟩ := c
    unfold mirrorSet
    split
    · simp [mirrorGet]
    · split
      · simp [mirrorGet]
      · simp only [mirrorGet]
        rw [if_neg (by omega), ih]

theorem mirrorGet_set_ne (m : List Host.Cell) (a a' : Nat) (v : Byte) (h : a' ≠ a) :
    mirrorGet (mirrorSet m a v) a' = mirrorGet m a' := by
  induction m with
  | nil => simp [mirrorSet, mirrorGet, Ne.symm h]
  | cons c m ih =>
    obtain ⟨b, w⟩ := c
    unfold mirrorSet
    split
    · simp [mirrorGet, Ne.symm h]
    · split
      · subst_vars
        simp [mirrorGet, Ne.symm h]
      · simp only [mirrorGet, ih]

theorem mirrorGet_set (m : List Host.Cell) (a a' : Nat) (v : Byte) :
    mirrorGet (mirrorSet m a v) a' = if a' = a then some v else mirrorGet m a' := by
  split
  · subst_vars; exact mirrorGet_set_self m _ v
  · exact mirrorGet_set_ne m a a' v ‹_›

theorem risingFrom_mono {lo lo' : Nat} (h : lo' ≤ lo) (m : List Host.Cell) (hm : risingFrom lo m = true) :
    risingFrom lo' m = true := by
  cases m with
  | nil => rfl
  | cons c m => simp [risingFrom] at hm ⊢; exact ⟨by omega, hm.2⟩

theorem risingFrom_set (m : List Host.Cell) (lo a : Nat) (v : Byte) (ha : lo ≤ a) (hm : risingFrom lo m = true) :
    risingFrom lo (mirrorSet m a v) = true := by
  induction m generalizing lo with
  | nil => simp [mirrorSet, risingFrom, ha]
  | cons c m ih =>
    obtain ⟨b, w⟩ := c
    simp only [risingFrom, Bool.and_eq_true, decide_eq_true_eq] at hm
    unfold mirrorSet
    split
    · simp only [risingFrom, Bool.and_eq_true, decide_eq_true_eq]
      exact ⟨ha, by omega, hm.2⟩
    · split
      · simp only [risingFrom, Bool.and_eq_true, decide_eq_true_eq]
        exact ⟨ha, by subst_vars; exact hm.2⟩
      · simp only [risingFrom, Bool.and_eq_true, decide_eq_true_eq]
        exact ⟨hm.1, ih (b + 1) (by omega) hm.2⟩

theorem mem_mirrorSet (m : List Host.Cell) (a : Nat) (v : Byte) (c : Host.Cell) (hc : c ∈ mirrorSet m a v) :
    c = (a, v) ∨ c ∈ m := by
  induction m with
  | nil => simpa [mirrorSet] using hc
  | cons d m ih =>
    obtain ⟨b, w⟩ := d
    unfold mirrorSet at hc
    split at hc
    · simpa using hc
    · split at hc
      · simp only [List.mem_cons] at hc ⊢; tauto
      · simp only [List.mem_cons] at hc ⊢
        rcases hc with hc | hc
        · tauto
        · rcases ih hc with h | h <;> tauto

theorem mirrorSet_wf (m : List Host.Cell) (a : Nat) (v : Byte) (ha : a < 256) (hm : mirrorWf m = true) :
    mirrorWf (mirrorSet m a v) = true := by
  simp only [mirrorWf, Bool.and_eq_true, List.all_eq_true] at hm ⊢
  refine ⟨risingFrom_set m 0 a v (Nat.zero_le _) hm.1, fun c hc => ?_⟩
  rcases mem_mirrorSet m a v c hc with rfl | h
  · exact decide_eq_true ha
  · exact hm.2 c h

theorem mirrorMerge_wf (cells m : List Host.Cell) (hc : ∀ c ∈ cells, c.1 < 256) (hm : mirrorWf m = true) :
    mirrorWf (mirrorMerge m cells) = true := by
  induction cells generalizing m with
  | nil => exact hm
  | cons c cells ih =>
    exact ih _ (fun d hd => hc d (List.mem_cons_of_mem _ hd))
      (mirrorSet_wf m c.1 c.2 (hc c List.mem_cons_self) hm)

theorem mirrorGet_merge_of_not_mem (cells m : List Host.Cell) (a : Nat) (h : ∀ c ∈ cells, c.1 ≠ a) :
    mirrorGet (mirrorMerge m cells) a = mirrorGet m a := by
  induction cells generalizing m with
  | nil => rfl
  | cons c cells ih =>
    refine (ih _ (fun d hd => h d (List.mem_cons_of_mem _ hd))).trans ?_
    exact mirrorGet_set_ne _ _ _ _ (Ne.symm (h c List.mem_cons_self))

theorem mirrorGet_merge_isSome (cells m : List Host.Cell) (a : Nat) (h : (mirrorGet m a).isSome = true) :
    (mirrorGet (mirrorMerge m cells) a).isSome = true := by
  induction cells generalizing m with
  | nil => exact h
  | cons c cells ih =>
    refine ih _ ?_
    rw [mirrorGet_set]
    split
    · rfl
    · exact h

theorem mirrorGet_merge_of_mem (cells m : List Host.Cell) (a : Nat) (v : Byte)
    (hd : (cells.map Prod.fst).Nodup) (h : (a, v) ∈ cells) : mirrorGet (mirrorMerge m cells) a = some v := by
  induction cells generalizing m with
  | nil => cases h
  | cons c cells ih =>
    simp only [List.map_cons, List.nodup_cons] at hd
    rcases List.mem_cons.mp h with rfl | h
    · refine (mirrorGet_merge_of_not_mem cells _ a fun d hdm => ?_).trans (mirrorGet_set_self m a v)
      rintro rfl
      exact hd.1 (List.mem_map.mpr ⟨d, hdm, rfl⟩)
    · exact ih _ hd.2 h

theorem mem_windowCells (data : Bytes) (a : Nat) (c : Host.Cell) :
    c ∈ windowCells a data ↔ ∃ j, ∃ h : j < data.length, c = (a + j, data[j]) := by
  induction data generalizing a with
  | nil => simp [windowCells]
  | cons v r ih =>
    simp only [windowCells, List.mem_cons, ih]
    constructor
    · rintro (rfl | ⟨j, hj, rfl⟩)
      · exact ⟨0, by simp, by simp⟩
      · exact ⟨j + 1, by simpa using hj, by simp; omega⟩
    · rintro ⟨j, hj, rfl⟩
      cases j with
      | zero => left; simp
      | succ j => right; exact ⟨j, by simpa using hj, by simp; omega⟩

theorem windowCells_keys_nodup (data : Bytes) (a : Nat) : ((windowCells a data).map Prod.fst).Nodup := by
  induction data generalizing a with
  | nil => simp [windowCells]
  | cons v r ih =>
    simp only [windowCells, List.map_cons, List.nodup_cons]
    refine ⟨fun h => ?_, ih (a + 1)⟩
    obtain ⟨c, hc, hca⟩ := List.mem_map.mp h
    obtain ⟨j, _, rfl⟩ := (mem_windowCells r (a + 1) c).mp hc
    simp at hca
    omega

/-- What a window merge does to each entry (R142). -/
theorem mirrorGet_merge_window (m : List Host.Cell) (start : Nat) (data : Bytes) (a : Nat) :
    mirrorGet (mirrorMerge m (windowCells start data)) a =
      if start ≤ a ∧ a < start + data.length then data[a - start]? else mirrorGet m a := by
  split
  · rename_i h
    have hj : a - start < data.length := by omega
    rw [List.getElem?_eq_getElem hj]
    refine mirrorGet_merge_of_mem _ _ _ _ (windowCells_keys_nodup _ _) ?_
    exact (mem_windowCells _ _ _).mpr ⟨a - start, hj, by simp; omega⟩
  · rename_i h
    refine mirrorGet_merge_of_not_mem _ _ _ fun c hc => ?_
    obtain ⟨j, hj, rfl⟩ := (mem_windowCells _ _ _).mp hc
    simp only
    omega

/-! ## The transport and the sequences -/

/-- An accepted send: the frame is written and the sequence suspended in `read()` (R155, R157). -/
theorem State.send_accepted (s : State) (F : Bytes) (k : HostSeq)
    (h : s.writes.head? = none ∨ s.writes.head? = some .accepts) :
    s.send F k = { s with writes := s.writes.tail, tx := s.tx ++ [F], inflight := some k } := by
  obtain ⟨cfg, m, p, f, q, w, t, r, pt⟩ := s
  rcases w with _ | ⟨⟨⟩ | ⟨i⟩, w⟩
  · rfl
  · rfl
  · simp at h

theorem State.send_fails (s : State) (F : Bytes) (k : HostSeq) (info : Bytes) (r : List WriteAnswer)
    (h : s.writes = .fails info :: r) :
    s.send F k = { s with writes := r }.finish (.error (.transportError info)) := by
  simp [State.send, h]

@[simp] theorem State.orFinish_ok {α : Type} (s : State) (a : α) (go : α → State) : s.orFinish (.ok a) go = go a := rfl
@[simp] theorem State.orFinish_error {α : Type} (s : State) (e : Err) (go : α → State) :
    s.orFinish (.error e) go = s.finish (.error e) := rfl
@[simp] theorem State.orFinish_miss {α : Type} (s : State) (m : MissAt) (go : α → State) :
    s.orFinish (.miss m) go = s.finish (.miss m) := rfl
@[simp] theorem State.orFinish_refused {α : Type} (s : State) (r : Reason) (go : α → State) :
    s.orFinish (.refused r) go = s.finish (.refused r) := rfl

end Sys2Proof.Machine
end

