-- ==== Sys2Proof/Laws/Frames.lean ====
section
/-! SUPPORT. The checksum as a sum, frames that pass `RXCHECK`, and what the builders build. -/

namespace Sys2Proof.Machine

theorem byteSum_eq_sum (s : Bytes) : byteSum s = ((s.map BitVec.toNat).sum : Nat) := by
  induction s with
  | nil => rfl
  | cons b s ih => simp [byteSum, ih]

/-- The checksum of 40_checksum R76 as a number. -/
theorem ck_toNat (s : Bytes) : ((ck s).toNat : Int) = (0x55 - ((s.map BitVec.toNat).sum : Nat)) % 256 := by
  rw [ck, BitVec.toNat_ofInt, byteSum_eq_sum]
  simp only [Config.ckSeed]
  have := Int.emod_nonneg (0x55 - (((s.map BitVec.toNat).sum : Nat) : Int)) (b := 256) (by decide)
  simp only [Nat.reducePow]
  omega

/-- R79: sixteen bytes and their checksum sum to 0x55 modulo 256. -/
theorem eq_ck_iff (s : Bytes) (k : Byte) : k = ck s ↔ ((s.map BitVec.toNat).sum + k.toNat) % 256 = 0x55 := by
  have h := ck_toNat s
  have hk := k.isLt
  have hc := (ck s).isLt
  rw [← BitVec.toNat_inj]
  omega

theorem length_frameBytes (c : Byte) (p : Bytes) (k : Byte) : (frameBytes c p k).length = p.length + 3 := by
  simp [frameBytes]

/-- A 17-byte string is its first sixteen bytes and its checksum byte. -/
theorem take_append_last (F : Bytes) (h : F.length = 17) : F.take 16 ++ [byteAt F 16] = F := by
  have : byteAt F 16 = F[16]'(by omega) := by simp [byteAt, h]
  rw [this, List.take_append_getElem]
  exact List.take_of_length_le (by omega)

/-- `RXCHECK` accepts exactly the valid frames (R98, R53), and gives them back. -/
theorem rxcheck_eq_ok_iff (b F : Bytes) : rxcheck b = .ok F ↔ ValidFrame b ∧ F = b := by
  unfold rxcheck
  by_cases hl : b.length = 17
  · have hs : ((b.map BitVec.toNat).sum) = ((b.take 16).map BitVec.toNat).sum + (byteAt b 16).toNat := by
      conv_lhs => rw [← take_append_last b hl]
      simp
    have hck := eq_ck_iff (b.take 16) (byteAt b 16)
    have h0 : byteAt b 0 = b.getD 0 0 := rfl
    simp only [ValidFrame, hl, hs, Config.frameLen, Config.header, ← hck, ne_eq, not_true_eq_false, if_false, ← h0]
    by_cases h1 : byteAt b 16 = ck (b.take 16) <;> by_cases h2 : byteAt b 0 = 0x08 <;> simp_all [eq_comm]
  · simp [Config.frameLen, hl, ValidFrame]

theorem rxcheck_of_valid {b : Bytes} (h : ValidFrame b) : rxcheck b = .ok b := (rxcheck_eq_ok_iff b b).mpr ⟨h, rfl⟩

theorem rxcheck_cases (b : Bytes) :
    rxcheck b = .ok b ∨ rxcheck b = .error .malformedFrame ∨ rxcheck b = .error .checksumMismatch := by
  unfold rxcheck
  split
  · simp
  · split
    · simp
    · split <;> simp

/-- `RXCHECK` by the one error of the first failed test (60_exceptions R184). -/
theorem rxcheck_eq (b : Bytes) :
    rxcheck b = match validationError b with | some e => .error e | none => .ok b := by
  unfold rxcheck validationError
  by_cases hl : b.length = 17
  · have hs : ((b.map BitVec.toNat).sum) = ((b.take 16).map BitVec.toNat).sum + (byteAt b 16).toNat := by
      conv_lhs => rw [← take_append_last b hl]
      simp
    have hck := eq_ck_iff (b.take 16) (byteAt b 16)
    rw [← hs] at hck
    have h0 : byteAt b 0 = b.getD 0 0 := rfl
    simp only [hl, Config.frameLen, Config.header, ne_eq, not_true_eq_false, if_false, ← h0]
    by_cases h1 : byteAt b 16 = ck (b.take 16) <;> by_cases h2 : byteAt b 0 = 0x08 <;> simp_all
  · simp [Config.frameLen, hl]

theorem validationError_eq_none {b : Bytes} : validationError b = none ↔ ValidFrame b := by
  unfold validationError ValidFrame
  split
  · simp_all
  · split
    · simp_all
    · split <;> simp_all

/-- A raw decoder's validation (R108 to R111): the first failed test, then the command byte. -/
theorem rawFrame_eq (c : Byte) (b : Bytes) :
    rawFrame c b = match validationError b with
      | some e => .error e
      | none => if byteAt b 1 ≠ c then .refused .wrongCommand else .ok b := by
  unfold rawFrame
  rw [rxcheck_eq]
  cases validationError b <;> rfl

/-- A frame with the right checksum is valid. -/
theorem frameBytes_valid_iff (c : Byte) (p : Bytes) (k : Byte) (hp : p.length = 14) :
    ValidFrame (frameBytes c p k) ↔ k = ck (Config.header :: c :: p) := by
  rw [eq_ck_iff]
  simp [ValidFrame, frameBytes, hp, Config.header, Nat.add_assoc]

theorem length_assigned (a : ByteMap) : (assigned a).length = 14 := by simp [assigned, Config.nParam]

theorem makeFrame_valid (c : Byte) (p : Bytes) (hp : p.length = 14) : ValidFrame (makeFrame c p) :=
  (frameBytes_valid_iff c p _ hp).mpr rfl

/-- What `BUILD` answers with `Ok` (R83). -/
theorem build_eq_ok_iff (c : Byte) (a : ByteMap) (F : Bytes) :
    build c a = .ok F ↔ isCommand c = true ∧ (∀ e ∈ a, e.1.toNat ≤ 13) ∧ F = makeFrame c (assigned a) := by
  unfold build
  by_cases h : isCommand c = true
  · rw [if_pos h]
    by_cases h2 : (a.any fun e => decide (e.1.toNat > 13)) = true
    · rw [if_pos h2]
      simp only [List.any_eq_true, decide_eq_true_eq] at h2
      obtain ⟨e, he, h3⟩ := h2
      simp only [reduceCtorEq, false_iff, not_and]
      intro _ h4
      have := h4 e he
      omega
    · rw [if_neg h2]
      simp only [List.any_eq_true, decide_eq_true_eq, not_exists, not_and, not_lt] at h2
      simp [h, eq_comm]
      intro _ a' b' h'
      exact h2 _ h'
  · simp [h]

theorem valid_of_build {c : Byte} {a : ByteMap} {F : Bytes} (h : build c a = .ok F) : ValidFrame F := by
  obtain ⟨_, _, rfl⟩ := (build_eq_ok_iff c a F).mp h
  exact makeFrame_valid _ _ (length_assigned a)

theorem valid_of_serialize {t : Config.Tables} {v : Payload} {F : Bytes} (h : serialize t v = .ok F) : ValidFrame F := by
  cases v <;> exact valid_of_build h

theorem valid_of_memgetBuild {a : Byte} {n : Nat} {F : Bytes} (h : memgetBuild a n = .ok F) : ValidFrame F := by
  obtain ⟨_, _, h⟩ := Res.bind_eq_ok.mp h
  exact valid_of_build h

theorem valid_of_memsetBuild {w : ByteMap} {F : Bytes} (h : memsetBuild w = .ok F) : ValidFrame F := by
  obtain ⟨_, _, h⟩ := Res.bind_eq_ok.mp h
  exact valid_of_build h

/-- The parameters that a list of assignments gives, computed (R83). -/
theorem assigned_nil : assigned [] = zeroParams := by decide

theorem build_known (c : Byte) (a : ByteMap) (hc : isCommand c = true) (ha : ∀ e ∈ a, e.1.toNat ≤ 13) :
    build c a = .ok (makeFrame c (assigned a)) := (build_eq_ok_iff _ _ _).mpr ⟨hc, ha, rfl⟩

end Sys2Proof.Machine
end

