-- ==== Sys2Proof/Laws/Mirror.lean ====
section
/-! SUPPORT. What the shared operations over windows and write maps can do, once each, and that every operation that
writes the mirror keeps its canonical form (10_state R14). -/

namespace Sys2Proof.Machine

/-- Everything the window test can do (R94, R38). -/
theorem windowTest_cases (start : Byte) (length : Nat) :
    ((length < 1 ∨ 10 < length) ∧ windowTest start length = .refused .badLength) ∨
    (1 ≤ length ∧ length ≤ 10 ∧ 256 < start.toNat + length
      ∧ windowTest start length = .refused .addressOverflow) ∨
    (1 ≤ length ∧ length ≤ 10 ∧ start.toNat + length ≤ 256 ∧ windowTest start length = .ok ()) := by
  unfold windowTest
  by_cases h1 : length < 1 ∨ 10 < length
  · exact .inl ⟨h1, if_pos (show length < 1 ∨ length > Config.maxXfer from h1)⟩
  · by_cases h2 : 256 < start.toNat + length
    · exact .inr (.inl ⟨by omega, by omega, h2, by rw [if_neg (show ¬ (length < 1 ∨ length > Config.maxXfer) from h1), if_pos (show start.toNat + length > Config.mirrorDepth from h2)]⟩)
    · exact .inr (.inr ⟨by omega, by omega, by omega, by rw [if_neg (show ¬ (length < 1 ∨ length > Config.maxXfer) from h1), if_neg (show ¬ start.toNat + length > Config.mirrorDepth from h2)]⟩)

/-- Everything the span check can do (R143). -/
theorem spanCheck_cases (w : ByteMap) :
    spanCheck w = .error .invalidWriteSpan ∨
    (spanCheck w = .ok (BitVec.ofNat 8 (minKey w), w.length) ∧ 1 ≤ w.length ∧ w.length ≤ 10
      ∧ contiguousFrom w (minKey w) = true) := by
  unfold spanCheck
  by_cases h1 : w.length < 1 ∨ 10 < w.length
  · exact .inl (if_pos (show w.length < 1 ∨ w.length > Config.maxXfer from h1))
  · by_cases h2 : contiguousFrom w (minKey w) = true
    · exact .inr ⟨by rw [if_neg (show ¬ (w.length < 1 ∨ w.length > Config.maxXfer) from h1), if_pos h2], by omega, by omega, h2⟩
    · exact .inl (by rw [if_neg (show ¬ (w.length < 1 ∨ w.length > Config.maxXfer) from h1), if_neg h2])

/-- A window is no block from `lo` unless each of its addresses is a key (R143). -/
theorem contiguousFrom_iff (w : ByteMap) (lo : Nat) :
    contiguousFrom w lo = true ↔ ∀ j < w.length, ∃ e ∈ w, e.1.toNat = lo + j := by
  simp [contiguousFrom]

/-- Everything `MIR_FILL` can do to the mirror (R142). -/
theorem mirFill_cases (m : List Host.Cell) (start : Byte) (d : Bytes) :
    ((d.length < 1 ∨ 10 < d.length) ∧ mirFill m start d = .refused .badLength) ∨
    (1 ≤ d.length ∧ d.length ≤ 10 ∧ 256 < start.toNat + d.length ∧ mirFill m start d = .refused .addressOverflow) ∨
    (1 ≤ d.length ∧ d.length ≤ 10 ∧ start.toNat + d.length ≤ 256
      ∧ mirFill m start d = .ok (mirrorMerge m (windowCells start.toNat d))) := by
  unfold mirFill
  by_cases h1 : d.length < 1 ∨ 10 < d.length
  · exact .inl ⟨h1, if_pos (show d.length < 1 ∨ d.length > Config.maxXfer from h1)⟩
  · by_cases h2 : 256 < start.toNat + d.length
    · exact .inr (.inl ⟨by omega, by omega, h2, by rw [if_neg (show ¬ (d.length < 1 ∨ d.length > Config.maxXfer) from h1), if_pos (show start.toNat + d.length > Config.mirrorDepth from h2)]⟩)
    · exact .inr (.inr ⟨by omega, by omega, by omega, by rw [if_neg (show ¬ (d.length < 1 ∨ d.length > Config.maxXfer) from h1), if_neg (show ¬ start.toNat + d.length > Config.mirrorDepth from h2)]⟩)

/-- Everything `MIR_WR` can do to the mirror (R144). -/
theorem mirWr_cases (m : List Host.Cell) (w : ByteMap) :
    (spanCheck w = .error .invalidWriteSpan ∧ mirWr m w = .error .invalidWriteSpan) ∨
    ((∃ p, spanCheck w = .ok p) ∧ mirWr m w = .ok (mirrorMerge m (mapCells w))) := by
  rcases spanCheck_cases w with h | ⟨h, _⟩
  · exact .inl ⟨h, by rw [mirWr, h]; rfl⟩
  · exact .inr ⟨⟨_, h⟩, by rw [mirWr, h]; rfl⟩

/-- The empty mirror, which reset, `MIR_CLR` and `restore` leave, has the canonical form. -/
theorem mirrorWf_nil : mirrorWf [] = true := rfl

theorem reset_mirrorWf : mirrorWf State.reset.mirror = true := rfl

theorem mirFill_wf {m m' : List Host.Cell} {start : Byte} {d : Bytes} (h : mirFill m start d = .ok m')
    (hm : mirrorWf m = true) : mirrorWf m' = true := by
  rcases mirFill_cases m start d with ⟨_, h1⟩ | ⟨_, _, _, h1⟩ | ⟨_, _, h2, h1⟩ <;> rw [h1] at h <;> cases h
  refine mirrorMerge_wf _ _ (fun c hc => ?_) hm
  obtain ⟨j, hj, rfl⟩ := (mem_windowCells _ _ _).mp hc
  simp only
  omega

theorem mirWr_wf {m m' : List Host.Cell} {w : ByteMap} (h : mirWr m w = .ok m') (hm : mirrorWf m = true) :
    mirrorWf m' = true := by
  rcases mirWr_cases m w with ⟨_, h1⟩ | ⟨_, h1⟩ <;> rw [h1] at h <;> cases h
  refine mirrorMerge_wf _ _ (fun c hc => ?_) hm
  obtain ⟨e, _, rfl⟩ := List.mem_map.mp hc
  exact e.1.isLt

/-- Everything putting a new mirror in place can do: one result, and the mirror is written only with `Ok` (R186). -/
theorem merged_cases (s : State) (r : Res (List Host.Cell)) :
    (∃ m, r = .ok m ∧ s.merged r = { s with mirror := m, results := s.results ++ [.ok .unit] }) ∨
    ∃ x : Result, (∀ v, x ≠ .ok v) ∧ s.merged r = { s with results := s.results ++ [x] } := by
  cases r with
  | ok m => exact .inl ⟨m, rfl, rfl⟩
  | error e => exact .inr ⟨.error e, by simp, rfl⟩
  | miss a => exact .inr ⟨.miss a, by simp, rfl⟩
  | refused x => exact .inr ⟨.refused x, by simp, rfl⟩

end Sys2Proof.Machine
end

