-- ==== Sys2Proof/Laws/Steps.lean ====
section
/-! SUPPORT. What the sequencer's shared operations can do, once each: a write, a turn of `read()`, and what a step takes
next. -/

namespace Sys2Proof.Machine

/-- Everything a write can do: the frame is written and the sequence waits, or the write fails and the sequence ends. -/
theorem State.send_cases (s : State) (F : Bytes) (k : HostSeq) :
    s.send F k = { s with writes := s.writes.tail, tx := s.tx ++ [F], inflight := some k } ∨
    ∃ info, s.send F k
      = { s with writes := s.writes.tail, inflight := none, results := s.results ++ [.error (.transportError info)] } := by
  rcases hw : s.writes with _ | ⟨_ | info, r⟩
  · exact .inl (by simp [State.send, hw])
  · exact .inl (by simp [State.send, hw])
  · exact .inr ⟨info, by simp [State.send, hw, State.finish]⟩

/-- Everything `orFinish` can do: go on with the value, or end the sequence with the result as it is. -/
theorem State.orFinish_cases {α : Type} (s : State) (r : Res α) (go : α → State) :
    (∃ a, r = .ok a ∧ s.orFinish r go = go a) ∨
    ∃ x : Result, (∀ v, x ≠ .ok v) ∧ (∀ a, r ≠ .ok a) ∧ s.orFinish r go = s.finish x := by
  cases r with
  | ok a => exact .inl ⟨a, rfl, rfl⟩
  | error e => exact .inr ⟨.error e, by simp, by simp, rfl⟩
  | miss m => exact .inr ⟨.miss m, by simp, by simp, rfl⟩
  | refused x => exact .inr ⟨.refused x, by simp, by simp, rfl⟩

/-- Everything a turn of the discard loop can do (R158): an invalid byte string ends the sequence, a frame of another
command is dropped, a frame of the awaited command goes on. -/
theorem awaitCmd_cases (c : Byte) (b : Bytes) (s : State) (go : Bytes → State) :
    (ValidFrame b ∧ byteAt b 1 = c ∧ awaitCmd c b s go = go b) ∨
    (ValidFrame b ∧ byteAt b 1 ≠ c ∧ awaitCmd c b s go = s) ∨
    ∃ e, rxcheck b = .error e ∧ awaitCmd c b s go = s.finish (.error e) := by
  rcases rxcheck_cases b with h | h | h
  · have hv := ((rxcheck_eq_ok_iff b b).mp h).1
    by_cases hc : byteAt b 1 = c
    · exact .inl ⟨hv, hc, by simp [awaitCmd, h, hc]⟩
    · exact .inr (.inl ⟨hv, hc, by simp [awaitCmd, h, hc]⟩)
  · exact .inr (.inr ⟨_, h, by simp [awaitCmd, h]⟩)
  · exact .inr (.inr ⟨_, h, by simp [awaitCmd, h]⟩)

/-- In flight, every frame form is what `read()` returns to the sequence (log 5). -/
theorem exec_wire_inflight (i : Instr) (F : Bytes) (s : State) (k : HostSeq) (hi : encode s.cfg.val.capP3 i = .wire F)
    (hk : s.inflight = some k) : exec i s = .next (receive k F s) := by
  cases i <;> cases hi <;>
    simp only [exec, execStatusReq, execStatusRsp, execPowerReq, execPowerRsp, execMemSetReq, execMemSetRsp,
      execMemGetReq, execMemGetRsp, execRestore, execDeviceEvent, execActiveProfileGetReq, execActiveProfileGetRsp,
      execActiveProfileSet, receiveOrIssue, deliver, hk]

/-- A turn of the sequencer leaves the port and `RXQ` as they stand after what it has taken: only `read()` takes from
`RXQ`, and only the fetch from the port. -/
abbrev KeepsQueues (s t : State) : Prop := t.port = s.port ∧ t.rxq = s.rxq

theorem State.orFinish_keepsQueues {α : Type} (s : State) (r : Res α) (go : α → State) (h : ∀ a, KeepsQueues s (go a)) :
    KeepsQueues s (s.orFinish r go) := by
  rcases State.orFinish_cases s r go with ⟨a, _, h2⟩ | ⟨_, _, _, h2⟩ <;> rw [h2]
  · exact h a
  · exact ⟨rfl, rfl⟩

theorem State.send_keepsQueues (s : State) (F : Bytes) (k : HostSeq) : KeepsQueues s (s.send F k) := by
  rcases State.send_cases s F k with h | ⟨_, h⟩ <;> rw [h] <;> exact ⟨rfl, rfl⟩

theorem nextWindow_keepsQueues (windows : Bytes) (g : AfterScan) (s : State) : KeepsQueues s (nextWindow windows g s) := by
  cases windows with
  | nil => exact ⟨rfl, rfl⟩
  | cons a rest => exact State.orFinish_keepsQueues _ _ _ fun _ => State.send_keepsQueues _ _ _

theorem awaitCmd_keepsQueues (c : Byte) (b : Bytes) (s : State) (go : Bytes → State) (h : ∀ F, KeepsQueues s (go F)) :
    KeepsQueues s (awaitCmd c b s go) := by
  rcases awaitCmd_cases c b s go with ⟨_, _, h1⟩ | ⟨_, _, h1⟩ | ⟨_, _, h1⟩ <;> rw [h1]
  · exact h b
  · exact ⟨rfl, rfl⟩
  · exact ⟨rfl, rfl⟩

theorem receive_keepsQueues (k : HostSeq) (b : Bytes) (s : State) : KeepsQueues s (receive k b s) := by
  cases k with
  | isOn => exact awaitCmd_keepsQueues _ _ _ _ fun _ => ⟨rfl, rfl⟩
  | getPower => exact awaitCmd_keepsQueues _ _ _ _ fun _ => ⟨rfl, rfl⟩
  | memRead start length => exact awaitCmd_keepsQueues _ _ _ _ fun _ => ⟨rfl, rfl⟩
  | scan start rest after =>
    exact awaitCmd_keepsQueues _ _ _ _ fun _ => State.orFinish_keepsQueues _ _ _ fun _ =>
      State.orFinish_keepsQueues _ _ _ fun _ => nextWindow_keepsQueues rest after _
  | memSetStatus w =>
    refine awaitCmd_keepsQueues _ _ _ _ fun _ => State.orFinish_keepsQueues _ _ _ fun on => ?_
    unfold writeIfOn
    split
    · exact State.orFinish_keepsQueues _ _ _ fun _ => State.send_keepsQueues _ _ _
    · exact ⟨rfl, rfl⟩
  | memSetAck w =>
    exact awaitCmd_keepsQueues _ _ _ _ fun _ => State.orFinish_keepsQueues _ _ _ fun _ =>
      State.orFinish_keepsQueues _ _ _ fun _ => ⟨rfl, rfl⟩
  | getProfile =>
    refine State.orFinish_keepsQueues _ _ _ fun v => ?_
    split <;> exact ⟨rfl, rfl⟩
  | setProfile p =>
    refine State.orFinish_keepsQueues _ _ _ fun v => ?_
    split
    · split <;> exact ⟨rfl, rfl⟩
    · exact ⟨rfl, rfl⟩
  | restore =>
    refine State.orFinish_keepsQueues _ _ _ fun F => ?_
    split <;> exact ⟨rfl, rfl⟩

/-- With no reset next, a step takes what comes next. -/
theorem fetch_of_noReset {s : State} (h : NoResetNext s) : fetch s = fetchNext s := by
  unfold fetch
  split
  · rename_i r hr
    simp [NoResetNext, hr] at h
  · rename_i r hr
    simp [NoResetNext, hr] at h
  · rfl

/-- Wherever between two operations of a turn a reset falls, it leaves the same state (R197): up to its write or its
return a turn has changed nothing but what the reset clears. -/
theorem State.applyReset_between (t : State) (m : List Host.Cell) (p : Option Byte) (k : Option HostSeq) :
    { t with mirror := m, prof := p, inflight := k }.applyReset = t.applyReset := rfl

/-- A reset inside the turn that reads `b`: the byte string is gone, nothing is written and nothing is returned (R197,
R205). -/
theorem fetch_resetInTurn_reads {s t : State} {b : Bytes} {r : List PortItem} (hp : s.port = .resetInTurn :: r)
    (h : Reads { s with port := r } b t) : fetch s = .reset t := by
  have hk : t.inflight.isSome = true := by
    obtain ⟨hk, ⟨_, _, _, rfl⟩ | ⟨_, _, _, rfl⟩⟩ := h <;> exact hk
  have hn : fetchNext { s with port := r } = .wire b t := by
    obtain ⟨hk, ⟨_, q, hq, rfl⟩ | ⟨hq, r', hr, rfl⟩⟩ := h <;> obtain ⟨k, hk⟩ := Option.isSome_iff_exists.mp hk
    · simp only at hk hq
      simp [fetchNext, hk, hq]
    · simp only at hk hq hr
      simp [fetchNext, fetchPort, hk, hq, hr]
  simp [fetch, hp, hn, turnTaken, hk]

/-- What a step takes when `read()` returns a byte string. -/
theorem fetch_of_reads {s t : State} {b : Bytes} (h : Reads s b t) : fetch s = .wire b t := by
  obtain ⟨hk, ⟨hp, q, hq, rfl⟩ | ⟨hq, r, hr, rfl⟩⟩ := h <;> obtain ⟨k, hk⟩ := Option.isSome_iff_exists.mp hk
  · rw [fetch_of_noReset hp]
    simp [fetchNext, hk, hq]
  · simp [fetch, fetchNext, fetchPort, hk, hq, hr]

theorem inflight_of_reads {s t : State} {b : Bytes} (h : Reads s b t) : t.inflight = s.inflight := by
  obtain ⟨_, ⟨_, q, _, rfl⟩ | ⟨_, r, _, rfl⟩⟩ := h <;> rfl

end Sys2Proof.Machine
end

