-- ==== Sys2Proof/Tests/Slice0.lean ====
section
/-! SUPPORT. Small tests: an ill-formed term for each check, the decoding of every constructor from words written out
from spec/30_encoding.md R57 to R71 and 95_test_vectors.md, the vectors of 95_test_vectors.md, and for every statement
with hypotheses a witness that meets them. The address map is `TESTMAP` of 95_test_vectors section 0. -/

namespace Sys2Proof.Tests

open Sys2Proof Sys2Proof.Machine

/-! ## Helpers -/

/-- The reset state with the test tables. -/
def base : State := { State.reset with cfg := Config.testWf }
/-- The mirror with the entries of a write map. -/
def holding (w : ByteMap) : State := { base with mirror := mapCells w }
/-- A sequence waits in `read()`. -/
def waiting (k : HostSeq) : State := { base with inflight := some k }
/-- A sequence waits in `read()` and a byte string arrives. -/
def arriving (k : HostSeq) (b : Bytes) : State := { base with inflight := some k, port := [.arrives b] }
/-- The host starts a sequence. -/
def calling (c : HostCall) : State := { base with port := [.call c] }
/-- The state after an instruction. -/
def after (i : Instr) (s : State) : Option State :=
  match exec i s with
  | .next t => some t
  | .fault _ => none
  | .refused _ => none
/-- The state after a step. -/
def stepped (s : State) : Option State :=
  match step s with
  | .next t => some t
  | .fault _ => none
  | .refused _ => none
/-- The results of one instruction from the reset state. -/
def ran (i : Instr) : Option (List Result) := (after i base).map State.results
/-- The results of one instruction from another state. -/
def ranIn (s : State) (i : Instr) : Option (List Result) := (after i s).map State.results
/-- The instruction a frame decodes to, with the decided `CAP_P3`. -/
def frameInstr (F : Bytes) : Option Instr := match decode 0x01 (.wire F) with | .ok i => some i | .error _ => none
/-- The instruction an operation word decodes to. -/
def opInstr (b : Bytes) : Option Instr := match decode 0x01 (.op b) with | .ok i => some i | .error _ => none

/-- A frame of command `c` with `F[5] = 1` and `F[6] = 2`. -/
def profileFrame (c : Byte) : Bytes := [0x08, c, 0, 0, 0, 0x01, 0x02, 0, 0, 0, 0, 0, 0, 0, 0, 0, 0x4a - c]

set_option maxRecDepth 8000 in
theorem test_narrow_wf :
    ({ Config.testTables with setterDomain := List.replicate 13 [0x01] } : Config.Tables).wf = true := by decide
/-- The test tables with setters that accept one byte only. -/
def narrow : Config.WfTables := ⟨{ Config.testTables with setterDomain := List.replicate 13 [0x01] }, test_narrow_wf⟩

set_option maxRecDepth 8000 in
theorem test_dark_wf :
    ({ Config.testTables with capP3 := 0x02, ledExcluded := [[0, 0, 0]] } : Config.Tables).wf = true := by decide
/-- The test tables with another `CAP_P3` (R8), and with one LED colour excluded. -/
def dark : Config.WfTables := ⟨{ Config.testTables with capP3 := 0x02, ledExcluded := [[0, 0, 0]] }, test_dark_wf⟩
set_option maxRecDepth 8000 in
theorem test_wf_refuses_cap_zero : ({ Config.testTables with capP3 := 0 } : Config.Tables).wf = false := by decide

/-- Fourteen parameters. -/
def pars (a b c d e : Byte) : Bytes := [0, 0, a, b, c, d, e, 0, 0, 0, 0, 0, 0, 0]

/-! ## WellFormed refuses an ill-formed term of each check -/

theorem test_wf_refuses_short_params :
    wellFormed (.statusRsp [] 0) = false ∧ wellFormed (.powerRsp (pars 0 0 1 0 0 ++ [0]) 0) = false
      ∧ wellFormed (.memSetRsp [1] 0) = false ∧ wellFormed (.memGetRsp [1] 0) = false
      ∧ wellFormed (.deviceEvent [] 0) = false := by decide
theorem test_wf_refuses_request_as_response :
    wellFormed (.statusRsp (pars 0 0 0 0 0) 0x4a) = false ∧ wellFormed (.powerRsp (pars 0 0 0 0 0) 0x49) = false
      ∧ wellFormed (.memSetRsp (pars 0 2 1 1 1) 0) = false ∧ wellFormed (.memGetRsp (pars 0 10 0 0 0) 0) = false := by
  decide
theorem test_wf_refuses_data_not_ten : wellFormed (.memSetReq 0 2 [2, 0x53] 0xef) = false := by decide
theorem test_wf_refuses_key_twice :
    wellFormed (.build 3 [(1, 2), (1, 3)]) = false ∧ wellFormed (.memsetBuild [(1, 2), (1, 2)]) = false
      ∧ wellFormed (.spanCheck [(0, 0), (1, 1), (0, 1)]) = false ∧ wellFormed (.mirWr [(7, 0), (7, 1)]) = false := by
  decide
/-! ## Decoding: words written out from the spec, one at least for every constructor -/

theorem test_decode_status : -- R62, R93, V-D1
    frameInstr [0x08, 0x03, 0, 0, 0, 0, 0, 0, 0, 0, 0, 0, 0, 0, 0, 0, 0x4a] = some .statusReq
    ∧ frameInstr [0x08, 0x03, 0, 0, 0, 0, 0x01, 0, 0, 0, 0, 0, 0, 0, 0, 0, 0x49]
      = some (.statusRsp [0, 0, 0, 0, 1, 0, 0, 0, 0, 0, 0, 0, 0, 0] 0x49) := by decide
theorem test_decode_power : -- R61, V-S14
    frameInstr [0x08, 0x04, 0, 0, 0, 0, 0, 0, 0, 0, 0, 0, 0, 0, 0, 0, 0x49] = some .powerReq
    ∧ frameInstr [0x08, 0x04, 0, 0, 0, 0, 0x57, 0x01, 0x0f, 0xac, 0, 0, 0, 0, 0, 0, 0x36]
      = some (.powerRsp [0, 0, 0, 0, 0x57, 0x01, 0x0f, 0xac, 0, 0, 0, 0, 0, 0] 0x36) := by decide
theorem test_decode_mem_set : -- R58, V-M13, and a response with `F[2]` not zero
    frameInstr [0x08, 0x07, 0, 0, 0x20, 0x0a, 0xa0, 0xa1, 0xa2, 0xa3, 0xa4, 0xa5, 0xa6, 0xa7, 0xa8, 0xa9, 0xaf]
      = some (.memSetReq 0x20 0x0a [0xa0, 0xa1, 0xa2, 0xa3, 0xa4, 0xa5, 0xa6, 0xa7, 0xa8, 0xa9] 0xaf)
    ∧ frameInstr [0x08, 0x07, 1, 0, 0, 0, 0, 0, 0, 0, 0, 0, 0, 0, 0, 0, 0x45]
      = some (.memSetRsp [1, 0, 0, 0, 0, 0, 0, 0, 0, 0, 0, 0, 0, 0] 0x45) := by decide
theorem test_decode_mem_get : -- R58, V-M4, V-D7
    frameInstr [0x08, 0x08, 0, 0, 0xbe, 0x0a, 0, 0, 0, 0, 0, 0, 0, 0, 0, 0, 0x7d] = some (.memGetReq 0xbe 0x0a 0x7d)
    ∧ frameInstr [0x08, 0x08, 0, 0, 0x0a, 0x0a, 0x10, 0x11, 0x12, 0x13, 0x14, 0x15, 0x16, 0x17, 0x18, 0x19, 0x64]
      = some (.memGetRsp [0, 0, 0x0a, 0x0a, 0x10, 0x11, 0x12, 0x13, 0x14, 0x15, 0x16, 0x17, 0x18, 0x19] 0x64) := by
  decide
theorem test_decode_restore_event : -- R64, R63, V-E2
    frameInstr [0x08, 0x09, 0, 0, 0, 0, 0, 0, 0, 0, 0, 0, 0, 0, 0, 0, 0x44] = some .restore
    ∧ frameInstr [0x08, 0x0a, 0, 0, 0, 0, 0x02, 0x01, 0, 0, 0, 0, 0, 0, 0, 0, 0x40]
      = some (.deviceEvent [0, 0, 0, 0, 2, 1, 0, 0, 0, 0, 0, 0, 0, 0] 0x40) := by decide
theorem test_decode_profile : -- R60, R59, V-B7, V-S9, S4
    frameInstr [0x08, 0x0e, 0, 0, 0, 0, 0, 0, 0, 0, 0, 0, 0, 0, 0, 0, 0x3f] = some .activeProfileGetReq
    ∧ frameInstr [0x08, 0x0e, 0, 0, 0, 0x01, 0x02, 0, 0, 0, 0, 0, 0, 0, 0, 0, 0x3c] = some (.activeProfileGetRsp 2 0x3c)
    ∧ frameInstr [0x08, 0x0f, 0, 0, 0, 0x01, 0x03, 0, 0, 0, 0, 0, 0, 0, 0, 0, 0x3a] = some (.activeProfileSet 3 0x3a) := by
  decide
theorem test_decode_no_frame : -- R51, R52, R56, R66
    frameInstr [0x08, 0x03] = none ∧ frameInstr [0x09, 0x04, 0, 0, 0, 0, 0, 0, 0, 0, 0, 0, 0, 0, 0, 0, 0x48] = none
    ∧ frameInstr [0x08, 0x05, 0, 0, 0, 0, 0, 0, 0, 0, 0, 0, 0, 0, 0, 0, 0x48] = none
    ∧ frameInstr [0x08, 0x09, 1, 0, 0, 0, 0, 0, 0, 0, 0, 0, 0, 0, 0, 0, 0x43] = none
    ∧ frameInstr [0x08, 0x0f, 0, 0, 0, 0x02, 0x03, 0, 0, 0, 0, 0, 0, 0, 0, 0, 0x39] = none := by decide

theorem test_decode_build_ops : -- R70, selects 0x00 to 0x05; operand bytes log 3
    opInstr [0x00, 1, 0x80, 1, 0x80, 0] = some (.cksum [0x80, 0x80])
    ∧ opInstr [0x01, 0x03, 1, 0x0d, 0x01, 0] = some (.build 0x03 [(0x0d, 0x01)])
    ∧ opInstr [0x02, 6, 0x57, 1, 0x0f, 0xac] = some (.serialize (.powerDetails 87 true 4012))
    ∧ opInstr [0x02, 4, 1] = some (.serialize (.deviceEvent .dpiMode))
    ∧ opInstr [0x03] = some .statusBuild ∧ opInstr [0x04, 0xf6, 1, 0x0a, 0] = some (.memgetBuild 0xf6 10)
    ∧ opInstr [0x04, 0xf6, 1, 0x02, 1, 0x01, 0] = some (.memgetBuild 0xf6 258)
    ∧ opInstr [0x05, 1, 0x00, 0x02, 1, 0x01, 0x53, 0] = some (.memsetBuild [(0x00, 0x02), (0x01, 0x53)]) := by decide
theorem test_decode_parse_ops : -- selects 0x06 to 0x0b
    opInstr [0x06, 1, 0x08, 0] = some (.rxcheck [0x08]) ∧ opInstr [0x07, 0] = some (.parse [])
    ∧ opInstr [0x08, 1, 0x03, 0] = some (.statusDec [0x03]) ∧ opInstr [0x09, 1, 0x04, 0] = some (.powerDec [0x04])
    ∧ opInstr [0x0a, 1, 0x08, 1, 0x07, 0, 0x14, 1, 0x0a, 0] = some (.memgetDec [0x08, 0x07] 0x14 10)
    ∧ opInstr [0x0b, 1, 0x07, 0] = some (.memsetAck [0x07]) := by decide
theorem test_decode_map_ops : -- selects 0x0c to 0x12; 26000 is 0x6590
    opInstr [0x0c, 0, 0, 0x65, 0x90] = some (.dpiEnc 26000) ∧ opInstr [0x0d, 0x07, 0x06, 0x88] = some (.dpiDec 7 6 0x88)
    ∧ opInstr [0x0e, 0x0c] = some (.mapLookup 12) ∧ opInstr [0x0f, 0x01, 0x03] = some (.modeLookup 1 3)
    ∧ opInstr [0x10, 0x04, 0x02] = some (.btnLookup 4 2)
    ∧ opInstr [0x11, 0, 0x05, 0xff] = some (.fieldPair (.scalar 5 0xff))
    ∧ opInstr [0x11, 2, 0x01, 0xff, 0x00, 0x80] = some (.fieldPair (.triple 1 .led 0xff 0x00 0x80))
    ∧ opInstr [0x12, 1, 0x11, 0x53, 1, 0x10, 0x02, 0] = some (.spanCheck [(0x11, 0x53), (0x10, 0x02)]) := by decide
theorem test_decode_mirror_ops : -- selects 0x13 to 0x1b, and the reserved ones (R71)
    opInstr [0x13, 0xc8] = some (.mirRd 0xc8) ∧ opInstr [0x14] = some .mirEmpty
    ∧ opInstr [0x15, 0x0a, 1, 0x10, 1, 0x11, 0] = some (.mirFill 0x0a [0x10, 0x11])
    ∧ opInstr [0x16, 1, 0x00, 0x02, 0] = some (.mirWr [(0x00, 0x02)]) ∧ opInstr [0x17] = some .mirClr
    ∧ opInstr [0x18, 0, 0x08] = some (.fieldRd (.scalar 8)) ∧ opInstr [0x18, 1, 0x02] = some (.fieldRd (.triple 2 .dpi))
    ∧ opInstr [0x19] = some .profRd ∧ opInstr [0x1a, 0x03] = some (.profWr 3) ∧ opInstr [0x1b] = some .profClr
    ∧ opInstr [0x1c] = some .reserved1c ∧ opInstr [0x1d] = some .reserved1d ∧ opInstr [0x1e] = some .reserved1e
    ∧ opInstr [0x1f] = some .reserved1f := by decide
theorem test_decode_bad_words :
    opInstr [] = none ∧ opInstr [0x00, 1, 0x80] = none ∧ opInstr [0x13, 0x00, 0x01] = none ∧ opInstr [0x00, 2, 0x80, 0] = none
    ∧ opInstr [0x05, 1, 1, 2, 1, 1, 3, 0] = none ∧ opInstr [0x18, 3, 0] = none := by decide
theorem test_table_words : -- the match words of three rows of opcode_table.json
    decodeTableWord 136 0x080300000000000000000000000000004a = some .statusReq
    ∧ decodeTableWord 136 0x080e00000001020000000000000000003c = some (.activeProfileGetRsp 2 0x3c)
    ∧ decodeTableWord 8 0x0d = some (.dpiDec 0 0 0) := by decide

/-! ## Operations (95_test_vectors section 2) -/

/-- V-S14. -/
def powerFrame : Bytes := [0x08, 0x04, 0, 0, 0, 0, 0x57, 0x01, 0x0f, 0xac, 0, 0, 0, 0, 0, 0, 0x36]
/-- V-D7. -/
def dataFrame : Bytes := [0x08, 0x08, 0, 0, 0x0a, 0x0a, 0x10, 0x11, 0x12, 0x13, 0x14, 0x15, 0x16, 0x17, 0x18, 0x19, 0x64]
/-- V-D1: the device is on. -/
def onFrame : Bytes := [0x08, 0x03, 0, 0, 0, 0, 0x01, 0, 0, 0, 0, 0, 0, 0, 0, 0, 0x49]
/-- V-B1: the STATUS request, and the reply of a device that is off. -/
def offFrame : Bytes := [0x08, 0x03, 0, 0, 0, 0, 0, 0, 0, 0, 0, 0, 0, 0, 0, 0, 0x4a]
/-- V-M10. -/
def setFrame : Bytes := [0x08, 0x07, 0, 0, 0x10, 0x02, 0x02, 0x53, 0, 0, 0, 0, 0, 0, 0, 0, 0xdf]
/-- V-B5. -/
def restoreFrame : Bytes := [0x08, 0x09, 0, 0, 0, 0, 0, 0, 0, 0, 0, 0, 0, 0, 0, 0, 0x44]
/-- V-S12 with `TESTKINDS`. -/
def eventFrame : Bytes := [0x08, 0x0a, 0, 0, 0, 0, 0x02, 0, 0, 0, 0, 0, 0, 0, 0, 0, 0x41]
/-- V-E3: an unknown kind. -/
def strangeEvent : Bytes := [0x08, 0x0a, 0, 0, 0, 0, 0x7f, 0, 0, 0, 0, 0, 0, 0, 0, 0, 0xc4]
/-- A MEM_GET reply that echoes ten addresses, with data bytes of zero. -/
def echo (a : Byte) : Bytes := [0x08, 0x08, 0, 0, a, 0x0a, 0, 0, 0, 0, 0, 0, 0, 0, 0, 0, 0x3b - a]
/-- The window of `dataFrame`. -/
def dataMap : ByteMap := windowMap 0x0a [0x10, 0x11, 0x12, 0x13, 0x14, 0x15, 0x16, 0x17, 0x18, 0x19]
/-- A write map of two entries: `FIELD_PAIR(POLLING_RATE, 02)` (V-A10). -/
def pairMap : ByteMap := [(0x00, 0x02), (0x01, 0x53)]
/-- The last window of ten (V-SP6). -/
def topMap : ByteMap := [(0xf6, 0), (0xf7, 0), (0xf8, 0), (0xf9, 0), (0xfa, 0), (0xfb, 0), (0xfc, 0), (0xfd, 0), (0xfe, 0), (0xff, 0)]

theorem test_cksum : -- V-CK1, V-CK6, V-CK8, V-CK10
    ran (.cksum []) = some [.ok (.byte 0x55)] ∧ ran (.cksum [0x56]) = some [.ok (.byte 0xff)]
    ∧ ran (.cksum [0x80, 0x80]) = some [.ok (.byte 0x55)]
    ∧ ran (.cksum (List.replicate 16 0xff)) = some [.ok (.byte 0x65)] := by decide
theorem test_build : -- section 2.2
    ran (.build 0x03 [(13, 1)]) = some [.ok (.bytes [0x08, 0x03, 0, 0, 0, 0, 0, 0, 0, 0, 0, 0, 0, 0, 0, 0x01, 0x49])]
    ∧ ran (.build 0x05 []) = some [.refused .badCommand]
    ∧ ran (.build 0x03 [(14, 1)]) = some [.refused .badParamIndex] := by decide
theorem test_serialize : -- V-S7, V-S9, V-S12, V-S15
    ran (.serialize (.setActiveProfile 255))
      = some [.ok (.bytes [0x08, 0x0f, 0, 0, 0, 0x01, 0xff, 0, 0, 0, 0, 0, 0, 0, 0, 0, 0x3e])]
    ∧ ran (.serialize (.deviceEvent .dpiMode)) = some [.ok (.bytes eventFrame)]
    ∧ ran (.serialize (.powerDetails 255 true 65535))
      = some [.ok (.bytes [0x08, 0x04, 0, 0, 0, 0, 0xff, 0x01, 0xff, 0xff, 0, 0, 0, 0, 0, 0, 0x4b])] := by decide
theorem test_status_build : ran .statusBuild = some [.ok (.bytes offFrame)] := by decide
theorem test_memget_build : -- V-M5, V-M7, V-M8
    ran (.memgetBuild 0xf6 10)
      = some [.ok (.bytes [0x08, 0x08, 0, 0, 0xf6, 0x0a, 0, 0, 0, 0, 0, 0, 0, 0, 0, 0, 0x45])]
    ∧ ran (.memgetBuild 0xf7 10) = some [.refused .addressOverflow]
    ∧ ran (.memgetBuild 0 11) = some [.refused .badLength] ∧ ran (.memgetBuild 0 257) = some [.refused .badLength] := by decide
theorem test_memset_build : -- V-M10 with the entries swapped, V-M14
    ran (.memsetBuild [(0x11, 0x53), (0x10, 0x02)]) = some [.ok (.bytes setFrame)]
    ∧ ran (.memsetBuild []) = some [.error .invalidWriteSpan] := by decide
theorem test_rxcheck : -- V-RX2, V-RX8, V-RX9, V-RX10
    ran (.rxcheck [0x08, 0x04, 0, 0, 0, 0, 0, 0, 0, 0, 0, 0, 0, 0, 0, 0x49]) = some [.error .malformedFrame]
    ∧ ran (.rxcheck [0x09, 0x04, 0, 0, 0, 0, 0, 0, 0, 0, 0, 0, 0, 0, 0, 0, 0x48]) = some [.error .malformedFrame]
    ∧ ran (.rxcheck [0x09, 0x04, 0, 0, 0, 0, 0, 0, 0, 0, 0, 0, 0, 0, 0, 0, 0x49]) = some [.error .checksumMismatch] := by
  decide
theorem test_parse_ok : -- V-PW1, V-PW4, V-E2, V-P12
    ran (.parse powerFrame) = some [.ok (.payload (.powerDetails 87 true 4012))]
    ∧ ran (.parse [0x08, 0x04, 0, 0, 0, 0, 0x32, 0x02, 0x0e, 0x74, 0, 0, 0, 0, 0, 0, 0x93])
      = some [.ok (.payload (.powerDetails 50 true 3700))]
    ∧ ran (.parse eventFrame) = some [.ok (.payload (.deviceEvent .dpiMode))] := by decide
theorem test_parse_cap_parameter : -- R104 with `CAP_P3 = 0x02` (R8): the frame of V-P12 is not canonical, its neighbour is
    ranIn { base with cfg := dark } (.parse (profileFrame 0x0e)) = some [.error .unexpectedResponse]
    ∧ ranIn { base with cfg := dark } (.parse [0x08, 0x0e, 0, 0, 0, 0x02, 0x02, 0, 0, 0, 0, 0, 0, 0, 0, 0, 0x3b])
      = some [.ok (.payload (.currentActiveProfile 2))] := by decide
theorem test_parse_error : -- V-P1, V-P4, V-P8, V-P13, V-E3
    ran (.parse [0x08, 0x05, 0, 0, 0, 0, 0, 0, 0, 0, 0, 0, 0, 0, 0, 0, 0x48]) = some [.error .unknownCommand]
    ∧ ran (.parse offFrame) = some [.error .notImplemented]
    ∧ ran (.parse [0x08, 0x0f, 0, 0, 0, 0, 0, 0, 0, 0, 0, 0, 0, 0, 0, 0, 0x3e]) = some [.error .unexpectedResponse]
    ∧ ran (.parse [0x08, 0x0e, 0, 0, 0, 0x00, 0x03, 0, 0, 0, 0, 0, 0, 0, 0, 0, 0x3c]) = some [.error .unexpectedResponse]
    ∧ ran (.parse strangeEvent) = some [.error .unknownDeviceEvent] := by decide
theorem test_raw_decoders : -- V-D1, V-D2, V-D4, V-D5, V-D11, V-D13
    ran (.statusDec onFrame) = some [.ok (.flag true)] ∧ ran (.statusDec offFrame) = some [.ok (.flag false)]
    ∧ ran (.statusDec powerFrame) = some [.refused .wrongCommand]
    ∧ ran (.powerDec [0x08, 0x04, 0, 0, 0, 0, 0, 0, 0, 0, 0, 0, 0, 0, 0, 0, 0x49])
      = some [.ok (.payload (.powerDetails 0 false 0))]
    ∧ ran (.memsetAck setFrame) = some [.ok .unit] ∧ ran (.memsetAck dataFrame) = some [.refused .wrongCommand] := by
  decide
theorem test_memget_dec : -- V-D7, V-D8, V-D9
    ran (.memgetDec dataFrame 0x0a 10)
      = some [.ok (.bytes [0x10, 0x11, 0x12, 0x13, 0x14, 0x15, 0x16, 0x17, 0x18, 0x19])]
    ∧ ran (.memgetDec dataFrame 0x14 10) = some [.error .protocolMismatch]
    ∧ ran (.memgetDec dataFrame 0x0a 9) = some [.error .protocolMismatch] := by decide
theorem test_dpi_enc : -- V-DPI8, V-DPI9, V-DPI12 to V-DPI14
    ran (.dpiEnc 12800) = some [.ok (.bytes [0xff, 0xff, 0x00])] ∧ ran (.dpiEnc 12850) = some [.ok (.bytes [0, 0, 0x44])]
    ∧ ran (.dpiEnc 26000) = some [.ok (.bytes [0x07, 0x07, 0x88])] ∧ ran (.dpiEnc 75) = some [.error .notAMultiple]
    ∧ ran (.dpiEnc 4294967295) = some [.error .outOfRange] := by decide
theorem test_dpi_dec : -- V-DPI15, V-DPI16, V-DPI20, V-DPI23
    ran (.dpiDec 0x00 0x01 0x00) = some [.error .inconsistent] ∧ ran (.dpiDec 0 0 0x04) = some [.error .inconsistent]
    ∧ ran (.dpiDec 0 0 0x22) = some [.error .inconsistent] ∧ ran (.dpiDec 0xff 0xff 0xcc) = some [.ok (.dpi 51200)] := by
  decide
theorem test_lookups : -- V-A2, V-A4, V-A6 to V-A9
    ran (.mapLookup 12) = some [.ok (.addrPair 0xb7 0xb8)] ∧ ran (.modeLookup 1 3) = some [.ok (.byte 0x1b)]
    ∧ ran (.modeLookup 4 0) = some [.refused .badMode] ∧ ran (.modeLookup 0 8) = some [.refused .badSlot]
    ∧ ran (.btnLookup 4 2) = some [.ok (.byte 0x72)] ∧ ran (.btnLookup 5 0) = some [.refused .badSlot]
    ∧ ran (.btnLookup 0 3) = some [.refused .badIndex] ∧ ran (.mapLookup 13) = some [.refused .badName] := by decide
theorem test_field_pair : -- V-A11, V-A13
    ran (.fieldPair (.scalar 5 0xff)) = some [.ok (.map [(0x4e, 0xff), (0x4f, 0x56)])]
    ∧ ran (.fieldPair (.triple 1 .led 0xff 0x00 0x80))
      = some [.ok (.map [(0x1c, 0xff), (0x1d, 0x00), (0x1e, 0x80), (0x1f, 0xd6)])] := by decide
theorem test_span_check : -- V-MR3, V-SP4 to V-SP6
    ran (.spanCheck [(0x11, 0x53), (0x10, 0x02)]) = some [.ok (.span 0x10 2)]
    ∧ ran (.spanCheck [(0x10, 0x01), (0x12, 0x02)]) = some [.error .invalidWriteSpan]
    ∧ ran (.spanCheck []) = some [.error .invalidWriteSpan] ∧ ran (.spanCheck topMap) = some [.ok (.span 0xf6 10)] := by
  decide
set_option maxRecDepth 4000 in
theorem test_mirror_reads : -- V-MR1, V-MR2, V-MR5, V-MR6
    ran .mirEmpty = some [.ok (.flag true)] ∧ ran (.mirRd 0) = some [.miss (.entry 0)]
    ∧ ranIn (holding pairMap) .mirEmpty = some [.ok (.flag false)]
    ∧ ranIn (holding pairMap) (.mirRd 1) = some [.ok (.byte 0x53)] := by decide
theorem test_mirror_writes : -- V-MR4, V-MR14, V-MR15, V-MR16
    (after (.mirWr [(0x01, 0x53), (0x00, 0x02)]) base).map State.mirror = some [(0, 0x02), (1, 0x53)]
    ∧ (after (.mirFill 0xff [7]) (holding pairMap)).map State.mirror = some [(0, 0x02), (1, 0x53), (255, 7)]
    ∧ ran (.mirFill 0xf7 (List.replicate 10 1)) = some [.refused .addressOverflow]
    ∧ (after (.mirWr [(0x10, 1), (0x12, 2)]) (holding pairMap)).map State.mirror = some [(0, 0x02), (1, 0x53)]
    ∧ (after .mirClr (holding pairMap)).map State.mirror = some [] := by decide
theorem test_field_rd : -- V-MR7, V-MR8, V-MR11, P3 part b
    ranIn (holding pairMap) (.fieldRd (.scalar 0)) = some [.ok (.byte 0x02)]
    ∧ ranIn (holding pairMap) (.fieldRd (.scalar 1)) = some [.miss (.entry 0x02)]
    ∧ ranIn (holding [(0x0a, 0x10), (0x0b, 0x11)]) (.fieldRd (.scalar 3)) = some [.error .checksumMismatch]
    ∧ ranIn (holding [(0x20, 0x1f), (0x21, 0x1f), (0x22, 0x00), (0x23, 0x17)]) (.fieldRd (.triple 2 .dpi))
      = some [.ok (.bytes [0x1f, 0x1f, 0x00])] := by decide
theorem test_profile_cache : -- V-PC1 to V-PC4
    ran .profRd = some [.miss .prof] ∧ (after (.profWr 0) base).map State.prof = some (some 0)
    ∧ ranIn { base with prof := some 3 } .profRd = some [.ok (.byte 3)]
    ∧ (after .profClr { base with prof := some 3 }).map State.prof = some none := by decide
theorem test_reserved : -- V-OP1
    ran .reserved1c = some [.refused .badOp] ∧ ran .reserved1d = some [.refused .badOp]
    ∧ ran .reserved1e = some [.refused .badOp] ∧ ran .reserved1f = some [.refused .badOp] := by decide

/-! ## Frames and sequences (95_test_vectors section 3), one step each -/

theorem test_power_exchange : -- P2
    (after .powerReq base).map State.tx = some [[0x08, 0x04, 0, 0, 0, 0, 0, 0, 0, 0, 0, 0, 0, 0, 0, 0, 0x49]]
    ∧ (stepped (arriving .getPower eventFrame)).map State.inflight = some (some .getPower)
    ∧ (stepped (arriving .getPower powerFrame)).map State.results
      = some [.ok (.payload (.powerDetails 87 true 4012))] := by decide
theorem test_set_profile : -- P1 parts a and d
    (stepped (arriving (.setProfile 3) [0x08, 0x0f, 0, 0, 0, 0x01, 0x03, 0, 0, 0, 0, 0, 0, 0, 0, 0, 0x3a])).map State.prof
      = some (some 3)
    ∧ (stepped (arriving (.setProfile 3) [0x08, 0x0f, 0, 0, 0, 0x01, 0x01, 0, 0, 0, 0, 0, 0, 0, 0, 0, 0x3c])).map
      State.results = some [.error .unexpectedResponse] := by decide
theorem test_get_profile_strange_event : -- P1 part e
    (stepped (arriving .getProfile strangeEvent)).map State.results = some [.error .unknownDeviceEvent] := by decide
theorem test_mem_set_off : -- P5b
    (stepped (arriving (.memSetStatus pairMap) offFrame)).map State.results = some [.error .deviceOff]
    ∧ (stepped (arriving (.memSetStatus pairMap) offFrame)).map State.tx = some [] := by decide
theorem test_mem_set_on : -- P4, second write
    (stepped (arriving (.memSetStatus pairMap) onFrame)).map State.tx
      = some [[0x08, 0x07, 0, 0, 0, 0x02, 0x02, 0x53, 0, 0, 0, 0, 0, 0, 0, 0, 0xef]] := by decide
theorem test_mem_set_ack : -- P4 and P5d
    (stepped (arriving (.memSetAck pairMap) setFrame)).map State.mirror = some [(0, 0x02), (1, 0x53)]
    ∧ (stepped (arriving (.memSetAck pairMap)
      [0x08, 0x07, 0, 0, 0, 0x02, 0x02, 0x53, 0, 0, 0, 0, 0, 0, 0, 0, 0xee])).map State.mirror = some [] := by decide
theorem test_restore : -- P3 part c, P6
    (stepped { arriving .restore restoreFrame with mirror := [(0, 1)], prof := some 3 }).map (fun t => (t.mirror, t.prof))
      = some ([], none)
    ∧ (stepped { arriving .restore eventFrame with mirror := [(0, 1)], prof := some 3 }).map
      (fun t => (t.mirror, t.prof, t.results)) = some ([(0, 1)], some 3, [.error .unexpectedResponse]) := by decide
theorem test_scan_first_request : -- P3 part a, window 0x00
    (stepped (calling .readSettings)).map State.tx
      = some [[0x08, 0x08, 0, 0, 0, 0x0a, 0, 0, 0, 0, 0, 0, 0, 0, 0, 0, 0x3b]] := by decide
theorem test_scan_next_window : -- P3 part a: window 0x0a is merged, window 0x14 asked for
    (stepped (arriving (.scan 0x0a [0x14] .nothing) dataFrame)).map (fun t => (t.mirror.head?, t.mirror.length, t.tx))
      = some (some (0x0a, 0x10), 10, [[0x08, 0x08, 0, 0, 0x14, 0x0a, 0, 0, 0, 0, 0, 0, 0, 0, 0, 0, 0x27]]) := by decide
theorem test_set_dpi_rejected : -- P4, last paragraph
    (stepped (calling (.setDpi 1 75))).map State.results = some [.error .notAMultiple]
    ∧ (stepped (calling (.setDpi 1 26050))).map State.results = some [.error .outOfRange]
    ∧ (stepped (calling (.setDpi 4 800))).map State.results = some [.refused .badMode] := by decide
theorem test_set_dpi_sent : -- P4: the write map of mode 1 at 1600 DPI
    (stepped (calling (.setDpi 1 1600))).map State.inflight
      = some (some (.memSetStatus [(0x18, 0x1f), (0x19, 0x1f), (0x1a, 0x00), (0x1b, 0x17)])) := by decide
theorem test_get_dpi : -- P4, read back
    (stepped { calling (.getDpi 1) with mirror := [(0x18, 0x1f), (0x19, 0x1f), (0x1a, 0x00), (0x1b, 0x17)] }).map
      State.results = some [.ok (.dpi 1600)] := by decide
theorem test_get_led : -- P3 part b
    (stepped { calling (.getLed 3) with mirror := [(0x2c, 0xff), (0x2d, 0xff), (0x2e, 0xff), (0x2f, 0x58)] }).map
      State.results = some [.ok (.bytes [0xff, 0xff, 0xff])] := by decide
theorem test_set_led : -- R169, V-A13
    (stepped (calling (.setLed 1 0xff 0x00 0x80))).map State.inflight
      = some (some (.memSetStatus [(0x1c, 0xff), (0x1d, 0x00), (0x1e, 0x80), (0x1f, 0xd6)])) := by decide
theorem test_mem_write_overflow : -- R38, log 20
    (stepped (calling (.memWrite 0xff [1, 2]))).map State.results = some [.refused .addressOverflow] := by decide
theorem test_reset_in_flight : -- R197, R199
    (stepped { waiting .getPower with mirror := [(0, 1)], prof := some 3, port := [.reset], rxq := [.bytes powerFrame] }).map
      (fun t => (t.mirror, t.prof, t.inflight, t.rxq)) = some ([], none, none, [.bytes powerFrame]) := by decide
theorem test_reset_in_turn : -- R197: the STATUS reply is read, the reset falls, no MEM_SET is written
    (stepped { waiting (.memSetStatus pairMap) with port := [.resetInTurn], rxq := [.bytes onFrame] }).map
      (fun t => (t.inflight.isSome, t.rxq.length, t.tx, t.results)) = some (false, 0, [], []) := by decide
theorem test_reset_between_turns : -- R197: `on` read, MEM_SET written, then the reset; the reply stays unread
    (stepped { waiting (.memSetStatus pairMap) with port := [.readFirst, .reset], rxq := [.bytes onFrame, .bytes setFrame] }).map
      (fun t => (t.tx.length, t.rxq, t.port)) = some (1, [.bytes setFrame], [.reset])
    ∧ (stepped { waiting (.memSetAck pairMap) with port := [.reset], rxq := [.bytes setFrame] }).map
      (fun t => (t.inflight.isSome, t.rxq, t.results)) = some (false, [.bytes setFrame], []) := by decide
theorem test_reset_in_turn_of_frame : -- R197: an issued request form is not sent; a reply that nobody reads stays
    (stepped { base with port := [.resetInTurn, .word (.wire restoreFrame)] }).map (fun t => (t.port, t.tx)) = some ([], [])
    ∧ (stepped { base with port := [.resetInTurn, .word (.wire onFrame)] }).map State.port = some [.word (.wire onFrame)] := by
  decide
theorem test_fetch_word :
    (stepped (base.withFetchWord 8 0x1c)).map State.results = some [.refused .badOp]
    ∧ (stepped (base.withFetchWord 136 0x080300000000000000000000000000004a)).map State.tx = some [offFrame] := by decide

/-! ## Witnesses: for every statement with hypotheses, a state and operands that meet them, at the ends of their ranges -/

/-- The empty map is no block (V-SP5). -/
theorem test_empty_no_span : ¬ ∃ lo n, SpanOf [] lo n := by
  rintro ⟨lo, n, h, h1, _⟩
  simp at h
  omega
/-- The last ten addresses are a block (V-SP6). -/
theorem test_topMap_span : SpanOf topMap 0xf6 10 := by
  refine ⟨rfl, by decide, by decide, fun e he => ?_, fun j hj => ⟨(BitVec.ofNat 8 (0xf6 + j), 0), ?_, ?_⟩⟩
  · simp only [topMap, List.mem_cons, List.not_mem_nil, or_false] at he
    rcases he with rfl | rfl | rfl | rfl | rfl | rfl | rfl | rfl | rfl | rfl <;> decide
  · interval_cases j <;> simp [topMap]
  · rw [BitVec.toNat_ofNat]
    omega
/-- Two entries in one block. -/
theorem test_pairMap_span : SpanOf pairMap 0 2 := by
  refine ⟨rfl, by decide, by decide, fun e he => ?_, fun j hj => ?_⟩
  · simp only [pairMap, List.mem_cons, List.not_mem_nil, or_false] at he
    rcases he with rfl | rfl <;> decide
  · interval_cases j
    · exact ⟨(0, 2), by simp [pairMap], rfl⟩
    · exact ⟨(1, 0x53), by simp [pairMap], rfl⟩
theorem test_single_span : SpanOf [(0x00, 0x02)] 0 1 :=
  ⟨rfl, by decide, by decide, fun e he => by rw [List.mem_singleton.mp he]; decide,
    fun j hj => ⟨(0, 2), List.mem_singleton.mpr rfl, by show 0 = 0 + j; omega⟩⟩

theorem test_witness_CksumSubtractsSum : List.Perm [0x02, 0x01] ([0x01, 0x02] : Bytes) := by decide
theorem test_witness_ChecksumDetectsOneChange :
    ValidFrame powerFrame ∧ powerFrame.getD 0 0 ≠ 0x09 ∧ powerFrame.getD 16 0 ≠ 0x37
    ∧ (∃ G : Bytes, G.Perm powerFrame ∧ G.getD 0 0 = 0x08 ∧ G ≠ powerFrame)
    ∧ (0 < 1 ∧ 1 < 16 ∧ 16 < 17) :=
  ⟨by decide, by decide, by decide,
    ⟨[0x08, 0x04, 0, 0, 0, 0, 0x57, 0x01, 0xac, 0x0f, 0, 0, 0, 0, 0, 0, 0x36], by decide, by decide, by decide⟩, by decide⟩
theorem test_witness_BuildAssignsParameters :
    (KeysDistinct [] ∧ (0x05 : Byte) ∉ ([0x03, 0x04, 0x07, 0x08, 0x09, 0x0a, 0x0e, 0x0f] : Bytes))
    ∧ (KeysDistinct [(14, 1)] ∧ (0x03 : Byte) ∈ ([0x03, 0x04, 0x07, 0x08, 0x09, 0x0a, 0x0e, 0x0f] : Bytes)
      ∧ ∃ e ∈ ([(14, 1)] : ByteMap), 13 < e.1.toNat)
    ∧ (KeysDistinct [(0, 1), (13, 1)] ∧ (0x0f : Byte) ∈ ([0x03, 0x04, 0x07, 0x08, 0x09, 0x0a, 0x0e, 0x0f] : Bytes)
      ∧ ∀ e ∈ ([(0, 1), (13, 1)] : ByteMap), e.1.toNat ≤ 13) :=
  ⟨by decide, ⟨by decide, by decide, (14, 1), List.mem_singleton.mpr rfl, by decide⟩, by decide, by decide, by simp⟩
theorem test_witness_SerializeCanonicalFrames :
    (0x02 : Byte) = base.cfg.val.ekDpiMode ∧ ((0x0f : Byte).toNat = (4012 : BitVec 16).toNat / 256)
    ∧ (0xac : Byte).toNat = (4012 : BitVec 16).toNat % 256 := by decide
theorem test_witness_BareFramesAndStatusBuild :
    (0x03 : Byte) ∈ ([0x03, 0x04, 0x07, 0x08, 0x09, 0x0a, 0x0e, 0x0f] : Bytes) := by decide
theorem test_witness_MemsetBuildRequest :
    (KeysDistinct ([] : ByteMap) ∧ ¬ ∃ lo n, SpanOf [] lo n) ∧ KeysDistinct topMap ∧ SpanOf topMap 0xf6 10
    ∧ (0xff, 0) ∈ topMap :=
  ⟨⟨by decide, test_empty_no_span⟩, by decide, test_topMap_span, by decide⟩
theorem test_witness_MemgetBuildRequest : (0x02 : Byte).toNat = 258 % 256 ∧ (0x0a : Byte).toNat = 10 % 256 := by decide
theorem test_witness_BuiltFramesPassRxcheck :
    exec .statusBuild base = .next { base with results := base.results ++ [.ok (.bytes offFrame)] }
    ∧ exec (.memgetBuild 0xff 1) base = .next { base with results := base.results
      ++ [.ok (.bytes [0x08, 0x08, 0, 0, 0xff, 0x01, 0, 0, 0, 0, 0, 0, 0, 0, 0, 0, 0x45])] } := ⟨rfl, rfl⟩
theorem test_witness_VariantRoundTrip : (waiting .isOn).cfg = base.cfg := rfl
theorem test_witness_ParsedFrameIsCanonical :
    exec (.parse restoreFrame) base = .next { base with results := base.results ++ [.ok (.payload .restore)] } := rfl
theorem test_witness_MemgetDecChecksEcho : dataFrame.length = 17 ∧ (10 : Byte).toNat ≤ 10 ∧ 9 < (10 : Byte).toNat := by
  decide
theorem test_witness_DpiEncThreeBytes :
    50 ≤ (50 : BitVec 32).toNat ∧ (26000 : BitVec 32).toNat ≤ 26000 ∧ (50 : BitVec 32).toNat ≤ 26000
    ∧ 50 ≤ (26000 : BitVec 32).toNat := by decide
theorem test_witness_DpiRoundTrip :
    50 ≤ (26000 : BitVec 32).toNat ∧ (26000 : BitVec 32).toNat ≤ 26000 ∧ (26000 : BitVec 32).toNat % 50 = 0 := by decide
/-- For `LookupsAnswerTables`, `FieldPairIsContiguous` and `FieldRdChecksPair`: the ends of the ranges of names, modes,
slots and indexes. -/
theorem test_witness_LookupsAnswerTables :
    12 < (13 : Byte).toNat ∧ 3 < (4 : Byte).toNat ∧ ((3 : Byte).toNat ≤ 3 ∧ 7 < (8 : Byte).toNat) ∧ (7 : Byte).toNat ≤ 7
    ∧ 4 < (5 : Byte).toNat ∧ ((4 : Byte).toNat ≤ 4 ∧ 2 < (3 : Byte).toNat) ∧ (2 : Byte).toNat ≤ 2 := by decide
theorem test_witness_FieldPairIsContiguous :
    12 < (13 : Byte).toNat ∧ 3 < (4 : Byte).toNat ∧ (3 : Byte).toNat ≤ 3 ∧ groupSlot .led = 4 := by decide
theorem test_witness_FieldRdChecksPair :
    12 < (13 : Byte).toNat ∧ 3 < (4 : Byte).toNat ∧ (3 : Byte).toNat ≤ 3 ∧ groupSlot .dpi = 0 := by decide
theorem test_witness_SpanCheckBlock :
    (KeysDistinct ([] : ByteMap) ∧ ¬ ∃ lo n, SpanOf [] lo n) ∧ (KeysDistinct topMap ∧ SpanOf topMap 0xf6 10)
    ∧ KeysDistinct [(0x00, 0x02)] ∧ SpanOf [(0x00, 0x02)] 0 1 :=
  ⟨⟨by decide, test_empty_no_span⟩, ⟨by decide, test_topMap_span⟩, by decide, test_single_span⟩
theorem test_witness_MirrorReads :
    mirrorGet (holding topMap).mirror (0xff : Byte).toNat = some 0
    ∧ mirrorGet (holding topMap).mirror (0xf5 : Byte).toNat = none
    ∧ ∀ a : Byte, mirrorGet base.mirror a.toNat = none := ⟨by decide, by decide, fun _ => rfl⟩
theorem test_witness_MirFillMergesWindow :
    ([] : Bytes).length < 1 ∧ 10 < (List.replicate 11 (0 : Byte)).length
    ∧ (10 ≤ (List.replicate 10 (0 : Byte)).length ∧ 256 < (0xf7 : Byte).toNat + (List.replicate 10 (0 : Byte)).length)
    ∧ (0xf6 : Byte).toNat + (List.replicate 10 (0 : Byte)).length ≤ 256 := by decide
theorem test_witness_MirWrMergesPairs :
    (KeysDistinct ([] : ByteMap) ∧ ¬ ∃ lo n, SpanOf [] lo n) ∧ KeysDistinct topMap ∧ (∃ lo n, SpanOf topMap lo n)
    ∧ (0xf6, 0) ∈ topMap ∧ ∀ e ∈ topMap, e.1.toNat ≠ 0xf5 :=
  ⟨⟨by decide, test_empty_no_span⟩, by decide, ⟨0xf6, 10, test_topMap_span⟩, by decide, fun e he => by
    have := test_topMap_span.2.2.2.1 e he
    omega⟩
theorem test_witness_ClearAndProfileCache : ({ base with prof := some 3 } : State).prof = some 3 ∧ base.prof = none :=
  ⟨rfl, rfl⟩
theorem test_witness_OperationSelects :
    opSelect .reserved1f = some 0x1f ∧ opSelect .restore = none ∧ decode 0x01 (.op [0x33, 0x0c]) = .ok (.mirRd 0x0c) :=
  ⟨rfl, rfl, rfl⟩
theorem test_witness_OperationsTouchOnlyTheirState :
    opSelect (.mirFill 0xf7 [0]) = some 0x15
    ∧ exec (.mirRd 0) base = .next { base with mirror := [], prof := none, results := base.results ++ [.miss (.entry 0)] } :=
  ⟨rfl, rfl⟩
theorem test_witness_DecodeOfEncode :
    wellFormed (.memSetReq 0xff 0xff (List.replicate 10 0xff) 0xff) = true ∧ wellFormed (.fieldRd (.scalar 0xff)) = true
    ∧ wellFormed (.memsetBuild topMap) = true ∧ wellFormed (.statusRsp (pars 0 0 1 0 0) 0xff) = true
    ∧ wellFormed (.cksum (List.replicate 70000 0)) = true ∧ wellFormed (.memgetBuild 0 70000) = true
    ∧ wellFormed (.activeProfileGetRsp 0 0x3f) = true := ⟨rfl, rfl, rfl, rfl, rfl, rfl, rfl⟩
theorem test_witness_DecodedFrameKeepsEveryByte :
    decodeFrame 0x01 eventFrame = .ok (.deviceEvent [0, 0, 0, 0, 2, 0, 0, 0, 0, 0, 0, 0, 0, 0] 0x41) := rfl
theorem test_witness_FramesDecodeByMask :
    (∀ F ∈ [offFrame, powerFrame, setFrame, dataFrame, restoreFrame, eventFrame], F.length = 17 ∧ F.getD 0 0 = 0x08)
    ∧ [offFrame, powerFrame, setFrame, dataFrame, restoreFrame, eventFrame].map (fun F => F.getD 1 0)
      = [0x03, 0x04, 0x07, 0x08, 0x09, 0x0a]
    ∧ (profileFrame 0x0e).length = 17 ∧ (profileFrame 0x0e).getD 1 0 = 0x0e ∧ (profileFrame 0x0f).getD 1 0 = 0x0f
    ∧ (profileFrame 0x10).getD 1 0 ∉ ([0x03, 0x04, 0x07, 0x08, 0x09, 0x0a, 0x0e, 0x0f] : Bytes) := by decide
theorem test_witness_StepRunsDecodedInstruction :
    (base.inflight = none ∧ ({ base with port := [.word (.op [0x14])] } : State).port = .word (.op [0x14]) :: []
      ∧ decode base.cfg.val.capP3 (.op [0x14]) = .ok .mirEmpty)
    ∧ (Reads (arriving .isOn offFrame) offFrame (waiting .isOn) ∧ decodeFrame base.cfg.val.capP3 offFrame = .ok .statusReq)
    ∧ Reads { waiting .isOn with rxq := [.bytes offFrame] } offFrame (waiting .isOn) :=
  ⟨⟨rfl, rfl, rfl⟩, ⟨⟨rfl, .inr ⟨rfl, [], rfl, rfl⟩⟩, rfl⟩, rfl, .inl ⟨⟨nofun, nofun⟩, [], rfl, rfl⟩⟩
theorem test_witness_ResetClearsBlockOnly :
    ({ waiting .isOn with port := [.reset] } : State).port = .reset :: []
    ∧ (({ waiting (.memSetStatus pairMap) with port := [.resetInTurn], rxq := [.bytes onFrame] } : State).port
        = .resetInTurn :: []
      ∧ Reads { waiting (.memSetStatus pairMap) with rxq := [.bytes onFrame] } onFrame (waiting (.memSetStatus pairMap)))
    ∧ (base.inflight = none
      ∧ ({ base with port := [.resetInTurn, .call .restore] } : State).port = .resetInTurn :: .call .restore :: [])
    ∧ ({ base with port := [.resetInTurn, .word (.op [0x17])] } : State).port
      = .resetInTurn :: .word (.op [0x17]) :: []
    ∧ ((waiting .isOn).inflight.isSome = true ∧ ({ waiting .isOn with rxq := [.fails [], .bytes []] } : State).rxq
        = .fails [] :: [.bytes []]
      ∧ ({ waiting .isOn with port := [.readFirst, .reset] } : State).port = .readFirst :: .reset :: []) :=
  ⟨rfl, ⟨rfl, rfl, .inl ⟨⟨nofun, nofun⟩, [], rfl, rfl⟩⟩, ⟨rfl, rfl⟩, rfl, rfl, rfl, rfl⟩
theorem test_witness_TablesNeverChange : step (calling .isOn) = .next (afterSend base offFrame .isOn) := rfl
theorem test_witness_ValidBitsClearTogether :
    step { holding pairMap with port := [.reset] } = .next base
    ∧ (mirrorGet (holding pairMap).mirror 0).isSome = true ∧ mirrorGet base.mirror 0 = none := ⟨rfl, rfl, rfl⟩
theorem test_witness_StepKeepsInvariant :
    Inv (arriving (.memSetAck pairMap) setFrame)
    ∧ step (arriving (.memSetAck pairMap) setFrame)
      = .next { base with mirror := [(0, 0x02), (1, 0x53)], results := [.ok .unit] } :=
  ⟨⟨rfl, by simp [arriving, base, State.reset], fun k hk => by cases hk; exact ⟨_, rfl⟩⟩, rfl⟩
theorem test_witness_OneRequestInFlight : step (calling .restore) = .next (afterSend base restoreFrame .restore) := rfl
theorem test_witness_BlockedReadWaits :
    (waiting .isOn).inflight = some .isOn ∧ (waiting .isOn).rxq = [] ∧ (waiting .isOn).port = []
    ∧ ({ waiting .isOn with port := [.word (.op [0x17])] } : State).port = .word (.op [0x17]) :: []
    ∧ ({ waiting .isOn with port := [.call .restore] } : State).port = .call .restore :: [] := ⟨rfl, rfl, rfl, rfl, rfl⟩
theorem test_witness_RequestFormsAreSent :
    base.inflight = none ∧ AcceptsWrite base ∧ AcceptsWrite { base with writes := [.accepts] }
    ∧ 1 ≤ (1 : Byte).toNat ∧ (10 : Byte).toNat ≤ 10 ∧ (0xf6 : Byte).toNat + (10 : Byte).toNat ≤ 256 :=
  ⟨rfl, .inl rfl, .inr rfl, by decide, by decide, by decide⟩
theorem test_witness_MemSetAsksStatusFirst :
    base.inflight = none ∧ AcceptsWrite base ∧ (List.replicate 10 (0 : Byte)).length = 10
    ∧ (ValidFrame ([0x08, 0x07, 0, 0, 0xf6, 0x0a] ++ List.replicate 10 0 ++ [0x46])
      ∧ (0xf6 : Byte).toNat + (0x0a : Byte).toNat ≤ 256)
    ∧ ValidFrame ([0x08, 0x07, 0, 0, 0, 0x00] ++ List.replicate 10 0 ++ [0x46])
    ∧ (ValidFrame ([0x08, 0x07, 0, 0, 0, 0x0b] ++ List.replicate 10 0 ++ [0x3b]) ∧ 10 < (0x0b : Byte).toNat)
    ∧ (ValidFrame ([0x08, 0x07, 0, 0, 0xff, 0x02] ++ List.replicate 10 0 ++ [0x45])
      ∧ 256 < (0xff : Byte).toNat + (0x02 : Byte).toNat) :=
  ⟨rfl, .inl rfl, by decide, by decide, by decide, by decide, by decide⟩
theorem test_witness_RequestsNotSent :
    ({ base with writes := [.fails [1]] } : State).writes = .fails [1] :: [] ∧ base.inflight = none
    ∧ (wellFormed (.memGetReq 0 10 0) = true
      ∧ encode base.cfg.val.capP3 (.memGetReq 0 10 0) = .wire [0x08, 0x08, 0, 0, 0, 0x0a, 0, 0, 0, 0, 0, 0, 0, 0, 0, 0, 0])
    ∧ ((([0x08, 0x08, 0, 0, 0, 0x0a, 0, 0, 0, 0, 0, 0, 0, 0, 0, 0, 0] : Bytes).map BitVec.toNat).sum % 256 ≠ 0x55)
    ∧ (0 : Byte).toNat < 1 ∧ 10 < (11 : Byte).toNat ∧ 256 < (0xf7 : Byte).toNat + (10 : Byte).toNat
    ∧ (1 ≤ (0x0a : Byte).toNat ∧ (0x0a : Byte).toNat ≤ 10 ∧ (0xf6 : Byte).toNat + (0x0a : Byte).toNat ≤ 256
      ∧ ValidFrame ([0x08, 0x07, 0, 0, 0xf6, 0x0a] ++ List.replicate 10 0 ++ [0x46])) :=
  ⟨rfl, rfl, ⟨rfl, rfl⟩, by decide, by decide, by decide, by decide, by decide⟩
theorem test_witness_UnreadFramesStayInTransport : base.inflight = none := rfl
theorem test_witness_BadReadEndsSequence :
    (Reads (arriving .isOn []) [] (waiting .isOn) ∧ validationError [] = some .malformedFrame)
    ∧ validationError (offFrame.set 16 0x4b) = some .checksumMismatch
    ∧ validationError ((offFrame.set 0 0x09).set 16 0x49) = some .malformedFrame
    ∧ ((waiting .isOn).inflight.isSome = true ∧ NoResetNext (waiting .isOn)
      ∧ ({ waiting .isOn with rxq := [.fails [1]] } : State).rxq = .fails [1] :: [])
    ∧ ((waiting .isOn).rxq = []
      ∧ ({ waiting .isOn with port := [.readFails [1]] } : State).port = .readFails [1] :: []) :=
  ⟨⟨⟨rfl, .inr ⟨rfl, [], rfl, rfl⟩⟩, by decide⟩, by decide, by decide,
    ⟨rfl, ⟨nofun, nofun⟩, rfl⟩, rfl, rfl⟩
theorem test_witness_OtherCommandsAreDiscarded :
    ∀ k : HostSeq, Reads (arriving k eventFrame) eventFrame (waiting k) ∧ (arriving k eventFrame).inflight = some k
      ∧ validationError eventFrame = none ∧ eventFrame.getD 1 0 ≠ 0x03 ∧ eventFrame.getD 1 0 ≠ 0x08 :=
  fun _ => ⟨⟨rfl, .inr ⟨rfl, [], rfl, rfl⟩⟩, rfl, by decide, by decide, by decide⟩
theorem test_witness_AwaitedReplyEndsQuery :
    (waiting .isOn).inflight = some .isOn ∧ (waiting .getPower).inflight = some .getPower
    ∧ (waiting (.memRead 0xf6 10)).inflight = some (.memRead 0xf6 10) ∧ (pars 0 0 1 0 0).length = 14
    ∧ ValidFrame ([0x08, 0x03] ++ pars 0 0 1 0 0 ++ [0x49]) ∧ ValidFrame ([0x08, 0x04] ++ pars 0 0 1 0 0 ++ [0x48])
    ∧ ValidFrame ([0x08, 0x08] ++ pars 0xf6 0x0a 1 0 0 ++ [0x44]) ∧ 1 ≤ 10 ∧ 10 ≤ 10 ∧ (0xf6 : Byte).toNat + 10 ≤ 256 :=
  ⟨rfl, rfl, rfl, by decide, by decide, by decide, by decide, by decide, by decide, by decide⟩
theorem test_witness_MemSetRepliesInTurn :
    KeysDistinct topMap ∧ SpanOf topMap 0xf6 10 ∧ (pars 0 0 1 0 0).length = 14
    ∧ (ValidFrame ([0x08, 0x03] ++ pars 0 0 0 0 0 ++ [0x4a]) ∧ (pars 0 0 0 0 0).getD 4 0 = 0)
    ∧ (ValidFrame ([0x08, 0x03] ++ pars 0 0 1 0 0 ++ [0x49]) ∧ (pars 0 0 1 0 0).getD 4 0 ≠ 0)
    ∧ ValidFrame ([0x08, 0x07] ++ pars 0 0 0 0 0 ++ [0x46])
    ∧ (waiting (.memSetStatus topMap)).inflight = some (.memSetStatus topMap) ∧ AcceptsWrite (waiting (.memSetStatus topMap))
    ∧ (waiting (.memSetAck topMap)).inflight = some (.memSetAck topMap) :=
  ⟨by decide, test_topMap_span, by decide, by decide, by decide, by decide, rfl, .inl rfl, rfl⟩
theorem test_witness_ProfileGetterCaches :
    (calling .getProfile).inflight = none ∧ (calling .getProfile).port = .call .getProfile :: []
    ∧ ({ calling .getProfile with prof := some 3 } : State).prof = some 3 ∧ (calling .getProfile).prof = none
    ∧ AcceptsWrite (calling .getProfile) ∧ (waiting .getProfile).inflight = some .getProfile :=
  ⟨rfl, rfl, rfl, rfl, .inl rfl, rfl⟩
theorem test_witness_ProfileEchoUpdatesCache : (waiting (.setProfile 3)).inflight = some (.setProfile 3) := rfl
theorem test_witness_VariantLoopErrorsAreFatal :
    (Reads (arriving .getProfile strangeEvent) strangeEvent (waiting .getProfile)
      ∧ exec (.parse strangeEvent) (waiting .getProfile) = .next { waiting .getProfile with
        results := (waiting .getProfile).results ++ [.error .unknownDeviceEvent] })
    ∧ (Reads (arriving (.setProfile 3) eventFrame) eventFrame (waiting (.setProfile 3))
      ∧ exec (.parse eventFrame) (waiting (.setProfile 3)) = .next { waiting (.setProfile 3) with
        results := (waiting (.setProfile 3)).results ++ [.ok (.payload (.deviceEvent .dpiMode))] }) :=
  ⟨⟨⟨rfl, .inr ⟨rfl, [], rfl, rfl⟩⟩, rfl⟩, ⟨rfl, .inr ⟨rfl, [], rfl, rfl⟩⟩, rfl⟩
theorem test_witness_RestoreNeedsExactEcho :
    (waiting .restore).inflight = some .restore ∧ Reads (arriving .restore eventFrame) eventFrame (waiting .restore)
    ∧ validationError eventFrame = none ∧ eventFrame ≠ restoreFrame :=
  ⟨rfl, ⟨rfl, .inr ⟨rfl, [], rfl, rfl⟩⟩, by decide, by decide⟩
theorem test_witness_DeviceEventInFlight :
    (∀ k, (waiting k).inflight = some k) ∧ (pars 0 0 2 0 0).length = 14
    ∧ ValidFrame ([0x08, 0x0a] ++ pars 0 0 2 0 0 ++ [0x41]) ∧ ValidFrame ([0x08, 0x0a] ++ pars 0 0 0x7f 0 0 ++ [0xc4]) :=
  ⟨fun _ => rfl, by decide, by decide, by decide⟩
theorem test_witness_MemSetOnlyAfterStatusOn :
    step (arriving (.memSetStatus pairMap) onFrame) = .next (afterSend base
      [0x08, 0x07, 0, 0, 0, 0x02, 0x02, 0x53, 0, 0, 0, 0, 0, 0, 0, 0, 0xef] (.memSetAck pairMap))
    ∧ ([0x08, 0x07, 0, 0, 0, 0x02, 0x02, 0x53, 0, 0, 0, 0, 0, 0, 0, 0, 0xef] : Bytes).getD 1 0 = 0x07 := ⟨rfl, rfl⟩
theorem test_witness_ReadSettingsFillsMirror :
    ∃ (s : State) (reply : Nat → Bytes), s.inflight = none ∧ s.rxq = [] ∧ s.writes = []
      ∧ s.port = .call .readSettings :: (List.range 20).map (fun k => .arrives (reply k)) ++ []
      ∧ ∀ k, k < 20 → ValidFrame (reply k) ∧ (reply k).getD 1 0 = 0x08
        ∧ ((reply k).getD 4 0).toNat = 10 * k ∧ (reply k).getD 5 0 = 10 :=
  ⟨{ base with port := .call .readSettings :: (List.range 20).map (fun k => .arrives (echo (BitVec.ofNat 8 (10 * k)))) ++ [] },
    fun k => echo (BitVec.ofNat 8 (10 * k)), rfl, rfl, rfl, rfl, by decide⟩
theorem test_witness_MemSetExchange :
    (calling (.memSet pairMap)).inflight = none ∧ (calling (.memSet pairMap)).rxq = []
    ∧ (calling (.memSet pairMap)).writes = [] ∧ KeysDistinct pairMap ∧ (¬ ∃ lo n, SpanOf [] lo n)
    ∧ (∃ lo n, SpanOf pairMap lo n) ∧ (ValidFrame offFrame ∧ offFrame.getD 1 0 = 0x03 ∧ offFrame.getD 6 0 = 0)
    ∧ (ValidFrame onFrame ∧ onFrame.getD 1 0 = 0x03 ∧ onFrame.getD 6 0 ≠ 0)
    ∧ (ValidFrame setFrame ∧ setFrame.getD 1 0 = 0x07) :=
  ⟨rfl, rfl, rfl, by decide, test_empty_no_span, ⟨0, 2, test_pairMap_span⟩, by decide, by decide,
    by decide⟩
theorem test_witness_GetterFillsOnMissOnly :
    (GetterOf (.getField .pollingRate) (.getField .pollingRate) ∧ GetterOf (.getDpi 3) (.getDpi 3)
      ∧ GetterOf (.getLed 4) (.getLed 4))
    ∧ ((calling (.getDpi 3)).inflight = none ∧ AcceptsWrite (calling (.getDpi 3))
      ∧ (calling (.getDpi 3)).port = .call (.getDpi 3) :: []
      ∧ GetterReads (calling (.getDpi 3)) (.getDpi 3) (.miss (.entry 0x28)))
    ∧ GetterReads { calling (.getField .pollingRate) with mirror := [(0, 2), (1, 0x53)] } (.getField .pollingRate)
      (.ok (.byte 2))
    ∧ (Reads (arriving (.scan 0x0a [0x14] .nothing) dataFrame) dataFrame (waiting (.scan 0x0a [0x14] .nothing))
      ∧ ValidFrame dataFrame ∧ dataFrame.getD 1 0 = 0x08 ∧ dataFrame.getD 4 0 = 0x0a ∧ dataFrame.getD 5 0 = 10
      ∧ AcceptsWrite (arriving (.scan 0x0a [0x14] .nothing) dataFrame) ∧ (0x14 : Byte).toNat + 10 ≤ 256)
    ∧ (Reads (arriving (.scan 0xf6 [] (.getLed 3)) (echo 0xf6)) (echo 0xf6) (waiting (.scan 0xf6 [] (.getLed 3)))
      ∧ ValidFrame (echo 0xf6) ∧ (echo 0xf6).getD 4 0 = 0xf6 ∧ (0xf6 : Byte).toNat + 10 ≤ 256) :=
  ⟨⟨.inl ⟨_, rfl, rfl⟩, .inr (.inl ⟨_, rfl, rfl⟩), .inr (.inr ⟨_, rfl, rfl⟩)⟩,
    ⟨rfl, .inl rfl, rfl, .miss (.entry 0x28), rfl, fun _ => rfl, fun _ h => by cases h⟩, rfl,
    ⟨⟨rfl, .inr ⟨rfl, [], rfl, rfl⟩⟩, by decide, rfl, rfl, rfl, .inl rfl, by decide⟩,
    ⟨rfl, .inr ⟨rfl, [], rfl, rfl⟩⟩, by decide, rfl, by decide⟩
theorem test_witness_SettersCheckBeforeFrames :
    (calling (.setDpi 3 26000)).inflight = none ∧ AcceptsWrite (calling (.setDpi 3 26000))
    ∧ (49 : BitVec 32).toNat < 50 ∧ 26000 < (26050 : BitVec 32).toNat ∧ (51 : BitVec 32).toNat % 50 ≠ 0
    ∧ 3 < (4 : Byte).toNat ∧ (3 : Byte).toNat ≤ 3 ∧ narrow.val.setterDomain[fieldIndex .pollingRate]? = some [0x01]
    ∧ (0x00 : Byte) ∉ ([0x01] : Bytes) ∧ (0x01 : Byte) ∈ ([0x01] : Bytes)
    ∧ ((calling (.setLed 3 0 0 0)).inflight = none ∧ AcceptsWrite (calling (.setLed 3 0 0 0))
      ∧ (calling (.setLed 3 0 0 0)).port = .call (.setLed 3 0 0 0) :: [])
    ∧ [0, 0, 0] ∈ ({ calling (.setLed 3 0 0 0) with cfg := dark } : State).cfg.val.ledExcluded
    ∧ [0, 0, 0] ∉ (calling (.setLed 3 0 0 0)).cfg.val.ledExcluded :=
  ⟨rfl, .inl rfl, by decide, by decide, by decide, by decide, by decide, rfl, by decide, by decide,
    ⟨rfl, .inl rfl, rfl⟩, by decide, by decide⟩
theorem test_witness_FailuresWriteNoState :
    (step (arriving .isOn []) = .next { base with results := base.results ++ [.error .malformedFrame] }
      ∧ ∀ a rest g, (arriving .isOn []).inflight ≠ some (.scan a rest g))
    ∧ step (arriving (.scan 0x0a [] (.getField .pollingRate)) dataFrame)
      = .next { holding dataMap with results := base.results ++ [.miss (.entry 0)] } := ⟨⟨rfl, by simp [arriving]⟩, rfl⟩
end Sys2Proof.Tests
end

section
/-! The checksum unit (40_checksum): `CKSUM` as a sum, as wrapping subtraction, and free of the order of the bytes. -/

namespace Sys2Proof.Machine

/-- The empty sequence, which the source leaves out (R76; 92_eei_decisions D14). -/
@[simp] theorem ck_nil : ck [] = 0x55 := rfl

/-- R76: one more byte takes that byte off the checksum, wrapping modulo 256 (R82). -/
@[simp] theorem ck_cons (v : Byte) (s : Bytes) : ck (v :: s) = ck s - v := by
  have hcons := ck_toNat (v :: s)
  have htail := ck_toNat s
  simp only [List.map_cons, List.sum_cons] at hcons
  bv_omega

/-- The generalisation the induction needs: the running subtraction started at any byte `x`, not at the seed 0x55. -/
theorem foldl_sub_eq_ck (s : Bytes) (x : Byte) : s.foldl (fun x v => x - v) x = x - 0x55 + ck s := by
  induction s generalizing x with
  | nil => simp
  | cons v s ih =>
    rw [List.foldl_cons, ih, ck_cons]
    abel

/-- R76: subtracting the bytes from 0x55 one after another, with wraparound, gives the checksum. -/
theorem foldl_sub_seed (s : Bytes) : s.foldl (fun x v => x - v) 0x55 = ck s := by
  simp [foldl_sub_eq_ck]

/-- R77: the checksum does not depend on the order of the bytes, since their sum does not. -/
theorem ck_perm {b c : Bytes} (h : c.Perm b) : ck c = ck b := by
  rw [ck, ck, byteSum_eq_sum, byteSum_eq_sum, (h.map BitVec.toNat).sum_eq]

/-- R77: `CKSUM` posts the checksum and touches nothing else. -/
theorem exec_cksum (b : Bytes) (s : State) :
    exec (.cksum b) s = .next { s with results := s.results ++ [.ok (.byte (ck b))] } := rfl

/-- Settles O1: the byte is `ck b`; the sum is `ck_toNat`, and the orders of the bytes come down to one by `ck_perm`. -/
theorem cksumSubtractsSum : Obligations.CksumSubtractsSum := by
  intro b s
  refine ⟨⟨seqBytes b, rfl⟩, ck b, exec_cksum b s, ck_toNat b, fun c hperm => ?_⟩
  calc c.foldl (fun x v => x - v) 0x55 = ck c := foldl_sub_seed c
    _ = ck b := ck_perm hperm

end Sys2Proof.Machine
end

section
/-! The frame builder and serializer (41_frame_build): which bytes stand where in a frame that `BUILD` answers, its
checksum as one subtraction, and the write maps that are one block of addresses. -/

namespace Sys2Proof.Machine

/-! ## What the five operations post -/

theorem exec_build (c : Byte) (A : ByteMap) (s : State) :
    exec (.build c A) s = .next { s with results := s.results ++ [(build c A).map .bytes] } := rfl

theorem exec_serialize (v : Payload) (s : State) :
    exec (.serialize v) s = .next { s with results := s.results ++ [(serialize s.cfg.val v).map .bytes] } := rfl

theorem exec_statusBuild (s : State) :
    exec .statusBuild s = .next { s with results := s.results ++ [statusBuild.map .bytes] } := rfl

theorem exec_memgetBuild (start : Byte) (length : Nat) (s : State) :
    exec (.memgetBuild start length) s
      = .next { s with results := s.results ++ [(memgetBuild start length).map .bytes] } := rfl

theorem exec_memsetBuild (w : ByteMap) (s : State) :
    exec (.memsetBuild w) s = .next { s with results := s.results ++ [(memsetBuild w).map .bytes] } := rfl

theorem exec_rxcheck (b : Bytes) (s : State) :
    exec (.rxcheck b) s = .next { s with results := s.results ++ [(rxcheck b).map .bytes] } := rfl

/-- The result of an operation can be read off the state after it. -/
theorem result_eq_of_next_eq {s : State} {r r' : Result}
    (h : (.next { s with results := s.results ++ [r] } : Outcome) = .next { s with results := s.results ++ [r'] }) :
    r = r' := by
  simpa using h

/-- A building operation that posts a frame has built that frame. -/
theorem ok_of_posted_bytes {s : State} {r : Res Bytes} {F : Bytes}
    (h : (.next { s with results := s.results ++ [r.map .bytes] } : Outcome)
      = .next { s with results := s.results ++ [.ok (.bytes F)] }) : r = .ok F := by
  obtain ⟨G, hG, hF⟩ := Res.map_eq_ok.mp (result_eq_of_next_eq h)
  cases hF
  exact hG

/-! ## Byte maps -/

/-- R55: the command test as membership in the list of the eight codes. -/
theorem isCommand_iff (c : Byte) :
    isCommand c = true ↔ c ∈ ([0x03, 0x04, 0x07, 0x08, 0x09, 0x0a, 0x0e, 0x0f] : Bytes) := by
  simp [isCommand, cmdStatus, cmdPower, cmdMemSet, cmdMemGet, cmdRestore, cmdDeviceEvent, cmdProfileGet, cmdProfileSet,
    or_assoc]

theorem lookupKey_eq_none {m : ByteMap} {k : Byte} (h : ∀ v, (k, v) ∉ m) : lookupKey m k = none := by
  induction m with
  | nil => rfl
  | cons e r ih =>
    obtain ⟨a, x⟩ := e
    have hne : a ≠ k := fun hak => h x (by simp [hak])
    rw [lookupKey, if_neg hne]
    exact ih fun v hv => h v (List.mem_cons_of_mem _ hv)

theorem lookupKey_of_mem {m : ByteMap} {k v : Byte} (hm : KeysDistinct m) (h : (k, v) ∈ m) : lookupKey m k = some v := by
  induction m with
  | nil => cases h
  | cons e r ih =>
    obtain ⟨a, x⟩ := e
    simp only [KeysDistinct, List.map_cons, List.nodup_cons] at hm
    obtain ⟨hnew, hr⟩ := hm
    rcases List.mem_cons.mp h with heq | hmem
    · cases heq
      exact if_pos rfl
    · have hne : a ≠ k := fun hak => hnew (hak ▸ List.mem_map_of_mem hmem)
      rw [lookupKey, if_neg hne]
      exact ih hr hmem

/-! ## `BUILD` (R83) -/

theorem build_badCommand {c : Byte} (A : ByteMap) (hc : ¬ isCommand c = true) : build c A = .refused .badCommand :=
  if_neg hc

theorem build_badParamIndex {c : Byte} {A : ByteMap} (hc : isCommand c = true) (hA : ∃ e ∈ A, 13 < e.1.toNat) :
    build c A = .refused .badParamIndex := by
  rw [build, if_pos hc, if_pos (by simpa using hA)]

theorem getD_frameBytes (c : Byte) {p : Bytes} (x : Byte) {i : Nat} (hi : i < p.length) :
    (frameBytes c p x).getD (i + 2) 0 = p.getD i 0 :=
  List.getD_append p [x] 0 i hi

theorem getD_assigned (A : ByteMap) (k : Byte) (hk : k.toNat ≤ 13) :
    (assigned A).getD k.toNat 0 = (lookupKey A k).getD 0 := by
  have hlt : k.toNat < 14 := by omega
  simp [assigned, Config.nParam, hlt]

/-- R83: parameter `k` stands at `F[k+2]`, as the map has it, and zero where the map has nothing. -/
theorem getD_makeFrame_assigned (c : Byte) (A : ByteMap) (k : Byte) (hk : k.toNat ≤ 13) :
    (makeFrame c (assigned A)).getD (k.toNat + 2) 0 = (lookupKey A k).getD 0 := by
  rw [makeFrame, getD_frameBytes c _ (by rw [length_assigned]; omega), getD_assigned A k hk]

theorem getD_one_of_build {c : Byte} {A : ByteMap} {F : Bytes} (h : build c A = .ok F) : F.getD 1 0 = c := by
  obtain ⟨_, _, rfl⟩ := (build_eq_ok_iff c A F).mp h
  rfl

theorem getD_of_build_of_mem {c : Byte} {A : ByteMap} {F : Bytes} (h : build c A = .ok F) (hA : KeysDistinct A)
    {k v : Byte} (hkv : (k, v) ∈ A) : F.getD (k.toNat + 2) 0 = v := by
  obtain ⟨_, hrange, rfl⟩ := (build_eq_ok_iff c A F).mp h
  rw [getD_makeFrame_assigned c A k (hrange _ hkv), lookupKey_of_mem hA hkv]
  rfl

theorem getD_of_build_of_not_mem {c : Byte} {A : ByteMap} {F : Bytes} (h : build c A = .ok F) {k : Byte}
    (hk : k.toNat ≤ 13) (hkA : ∀ v, (k, v) ∉ A) : F.getD (k.toNat + 2) 0 = 0 := by
  obtain ⟨_, _, rfl⟩ := (build_eq_ok_iff c A F).mp h
  rw [getD_makeFrame_assigned c A k hk, lookupKey_eq_none hkA]
  rfl

/-- R79 read backwards: the last byte of a valid frame is the checksum of the sixteen bytes before it. -/
theorem checksum_of_valid {F : Bytes} (h : ValidFrame F) :
    ((F.getD 16 0).toNat : Int) = (0x55 - (((F.take 16).map BitVec.toNat).sum : Nat)) % 256 := by
  obtain ⟨hlen, _, hsum⟩ := h
  have hck : byteAt F 16 = ck (F.take 16) := by
    rw [← take_append_last F hlen] at hsum
    exact (eq_ck_iff _ _).mpr (by simpa using hsum)
  rw [← ck_toNat, ← hck, byteAt]

/-- Settles O3: the two refusals are the two tests of `BUILD` in order; the bytes of the frame come from its rules. -/
theorem buildAssignsParameters : Obligations.BuildAssignsParameters := by
  intro c A s hA
  simp only [exec_build, ← isCommand_iff]
  refine ⟨⟨c :: mapBytes A, rfl⟩, fun hc => ?_, fun hc hbad => ?_, fun hc hrange => ?_⟩
  · rw [build_badCommand A hc, Res.map_refused]
  · rw [build_badParamIndex hc hbad, Res.map_refused]
  · have hF := build_known c A hc hrange
    have hvalid := valid_of_build hF
    exact ⟨_, by rw [hF, Res.map_ok], hvalid.1, hvalid.2.1, getD_one_of_build hF,
      fun _ _ hkv => getD_of_build_of_mem hF hA hkv, fun _ hk hkA => getD_of_build_of_not_mem hF hk hkA,
      checksum_of_valid hvalid⟩

/-! ## Whole frames: the checksum as one subtraction -/

theorem ck_eq_sub_sum (s : Bytes) : ck s = 0x55 - s.sum := by
  induction s with
  | nil => rfl
  | cons v s ih =>
    rw [ck_cons, ih, List.sum_cons]
    abel

/-- R85 with parameters: the header and the command take the seed to `0x4d - c`, the parameters come off that. -/
theorem makeFrame_eq (c : Byte) (p : Bytes) : makeFrame c p = 0x08 :: c :: (p ++ [0x4d - c - p.sum]) := by
  have hck : ck (0x08 :: c :: p) = 0x4d - c - p.sum := by
    rw [ck_cons, ck_cons, ck_eq_sub_sum]
    bv_omega
  simp only [makeFrame, frameBytes, Config.header, hck]

theorem build_eq (c : Byte) (A : ByteMap) (p : Bytes) (hc : isCommand c = true) (hA : ∀ e ∈ A, e.1.toNat ≤ 13)
    (hp : assigned A = p) : build c A = .ok (0x08 :: c :: (p ++ [0x4d - c - p.sum])) := by
  rw [build_known c A hc hA, hp, makeFrame_eq]

/-- R85: the bare frame of a command. -/
theorem build_bare (c : Byte) (hc : isCommand c = true) :
    build c [] = .ok [0x08, c, 0, 0, 0, 0, 0, 0, 0, 0, 0, 0, 0, 0, 0, 0, 0x4d - c] := by
  simpa [zeroParams, Config.nParam, List.replicate] using build_eq c [] zeroParams hc (by simp) assigned_nil

/-- The frame of two parameters 3 and 4: the profile frames (R59, R60). -/
theorem build_params34 (c a b : Byte) (hc : isCommand c = true) :
    build c [(3, a), (4, b)] = .ok [0x08, c, 0, 0, 0, a, b, 0, 0, 0, 0, 0, 0, 0, 0, 0, 0x4d - c - a - b] := by
  simpa [sub_sub, add_assoc] using
    build_eq c [(3, a), (4, b)] [0, 0, 0, a, b, 0, 0, 0, 0, 0, 0, 0, 0, 0] hc (by simp) rfl

/-! ## `SERIALIZE` (R84 to R92) -/

theorem hi16_eq {m : BitVec 16} {h : Byte} (hh : h.toNat = m.toNat / 256) : hi16 m = h := by
  have := h.isLt
  rw [hi16, ← BitVec.toNat_inj, BitVec.extractLsb'_toNat, Nat.shiftRight_eq_div_pow]
  omega

theorem lo16_eq {m : BitVec 16} {l : Byte} (hl : l.toNat = m.toNat % 256) : lo16 m = l := by
  rw [lo16, ← BitVec.toNat_inj, BitVec.extractLsb'_toNat, Nat.shiftRight_zero]
  omega

theorem serialize_currentActiveProfile (t : Config.Tables) (p : Byte) :
    serialize t (.currentActiveProfile p)
      = .ok [0x08, 0x0e, 0, 0, 0, t.capP3, p, 0, 0, 0, 0, 0, 0, 0, 0, 0, 0x3f - t.capP3 - p] :=
  build_params34 0x0e t.capP3 p rfl

theorem serialize_setActiveProfile (t : Config.Tables) (p : Byte) :
    serialize t (.setActiveProfile p) = .ok [0x08, 0x0f, 0, 0, 0, 0x01, p, 0, 0, 0, 0, 0, 0, 0, 0, 0, 0x3d - p] :=
  build_params34 0x0f 0x01 p rfl

theorem serialize_deviceEvent (t : Config.Tables) (e : EventKind) :
    serialize t (.deviceEvent e)
      = .ok [0x08, 0x0a, 0, 0, 0, 0, kindByte t e, 0, 0, 0, 0, 0, 0, 0, 0, 0, 0x43 - kindByte t e] := by
  rw [serialize]
  simpa using build_eq 0x0a [(4, kindByte t e)] [0, 0, 0, 0, kindByte t e, 0, 0, 0, 0, 0, 0, 0, 0, 0] rfl (by simp) rfl

theorem serialize_powerDetails (t : Config.Tables) (b : Byte) (f : Bool) (m : BitVec 16) :
    serialize t (.powerDetails b f m) = .ok [0x08, 0x04, 0, 0, 0, 0, b, ofFlag f, hi16 m, lo16 m, 0, 0, 0, 0, 0, 0,
      0x49 - b - ofFlag f - hi16 m - lo16 m] := by
  rw [serialize]
  simpa [sub_sub, add_assoc] using
    build_eq 0x04 [(4, b), (5, ofFlag f), (6, hi16 m), (7, lo16 m)]
      [0, 0, 0, 0, b, ofFlag f, hi16 m, lo16 m, 0, 0, 0, 0, 0, 0] rfl (by simp) rfl

/-- Settles O4: each variant by its rule; the three without a field have a bare frame. -/
theorem serializeCanonicalFrames : Obligations.SerializeCanonicalFrames := by
  intro s
  simp only [exec_serialize]
  refine ⟨fun v => ⟨payloadBytes v, rfl⟩, ?restore, ?requestActiveProfile, fun p => ?currentActiveProfile,
    fun p => ?setActiveProfile, fun e k hk => ?deviceEvent, ?requestPowerDetails,
    fun b f m c h l hc hh hl => ?powerDetails⟩
  case restore => rw [serialize, build_bare 0x09 rfl]; rfl
  case requestActiveProfile => rw [serialize, build_bare 0x0e rfl]; rfl
  case requestPowerDetails => rw [serialize, build_bare 0x04 rfl]; rfl
  case currentActiveProfile => rw [serialize_currentActiveProfile, Res.map_ok]
  case setActiveProfile => rw [serialize_setActiveProfile, Res.map_ok]
  case deviceEvent =>
    have hkind : kindByte s.cfg.val e = k := by rw [hk]; cases e <;> rfl
    rw [serialize_deviceEvent, hkind, Res.map_ok]
  case powerDetails =>
    have hflag : ofFlag f = c := hc.symm
    rw [serialize_powerDetails, hflag, hi16_eq hh, lo16_eq hl, Res.map_ok]

/-! ## Bare frames, `STATUS_BUILD` and `MEMGET_BUILD` (R85, R93, R94) -/

/-- Settles O5: `build_bare` for each command, STATUS among them. -/
theorem bareFramesAndStatusBuild : Obligations.BareFramesAndStatusBuild := by
  intro s
  refine ⟨fun c hc => ?_, rfl, ?_⟩
  · rw [exec_build, build_bare c ((isCommand_iff c).mpr hc), Res.map_ok]
  · rw [exec_statusBuild, statusBuild, build_bare 0x03 rfl]
    rfl

/-- The MEM_GET request of a window (R58). `BUILD` does not test the window; `MEMGET_BUILD` does that before. -/
theorem build_memGet (start n : Byte) : build 0x08 [(2, start), (3, n)]
    = .ok [0x08, 0x08, 0, 0, start, n, 0, 0, 0, 0, 0, 0, 0, 0, 0, 0, 0x45 - start - n] := by
  simpa [sub_sub, add_assoc] using
    build_eq 0x08 [(2, start), (3, n)] [0, 0, start, n, 0, 0, 0, 0, 0, 0, 0, 0, 0, 0] rfl (by simp) rfl

/-- Settles O6: the three cases of the window test (`windowTest_cases`), in its order. -/
theorem memgetBuildRequest : Obligations.MemgetBuildRequest := by
  intro start length s
  refine ⟨⟨start :: natBytes length, rfl⟩, fun n hn => ?_⟩
  have hlen : BitVec.ofNat 8 length = n := by rw [← BitVec.toNat_inj, BitVec.toNat_ofNat, hn]
  rw [exec_memgetBuild, memgetBuild, hlen]
  rcases windowTest_cases start length with ⟨hbad, htest⟩ | ⟨hlo, hhi, hover, htest⟩ | ⟨hlo, hhi, hfits, htest⟩
  · rw [htest, if_pos hbad, Res.bind_refused, Res.map_refused]
  · rw [htest, if_neg (by omega), if_pos hover, Res.bind_refused, Res.map_refused]
  · rw [htest, if_neg (by omega), if_neg (by omega), Res.bind_ok, build_memGet, Res.map_ok]

/-! ## Write maps that are one block (R143) -/

theorem minKey_le {w : ByteMap} {e : Byte × Byte} (he : e ∈ w) : minKey w ≤ e.1.toNat := by
  induction w with
  | nil => cases he
  | cons d r ih =>
    rw [minKey]
    rcases List.mem_cons.mp he with rfl | hr
    · exact Nat.min_le_left _ _
    · exact (Nat.min_le_right _ _).trans (ih hr)

theorem le_minKey {w : ByteMap} {lo : Nat} (hlo : lo ≤ 256) (h : ∀ e ∈ w, lo ≤ e.1.toNat) : lo ≤ minKey w := by
  induction w with
  | nil => exact hlo
  | cons d r ih =>
    rw [minKey]
    exact Nat.le_min.mpr ⟨h d List.mem_cons_self, ih fun e he => h e (List.mem_cons_of_mem _ he)⟩

theorem minKey_of_span {w : ByteMap} {lo n : Nat} (h : SpanOf w lo n) : minKey w = lo := by
  obtain ⟨_, hpos, _, hrange, hall⟩ := h
  obtain ⟨e, he, hkey⟩ := hall 0 hpos
  have hle := minKey_le he
  have hge := le_minKey (by have := e.1.isLt; omega) fun d hd => (hrange d hd).1
  omega

/-- R143: a map that has each of `lo, .., lo+|W|-1` as a key has no other key, as there are only `|W|` of them. -/
theorem key_lt_of_contiguousFrom {w : ByteMap} {lo : Nat} (h : contiguousFrom w lo = true) :
    ∀ e ∈ w, lo ≤ e.1.toNat ∧ e.1.toNat < lo + w.length := by
  have hsub : List.range' lo w.length ⊆ w.map fun e => e.1.toNat := by
    intro a ha
    obtain ⟨hge, hlt⟩ := List.mem_range'_1.mp ha
    obtain ⟨e, he, hkey⟩ := (contiguousFrom_iff w lo).mp h (a - lo) (by omega)
    exact List.mem_map.mpr ⟨e, he, by omega⟩
  have hperm : (List.range' lo w.length).Perm (w.map fun e => e.1.toNat) :=
    (List.subperm_of_subset List.nodup_range' hsub).perm_of_length_le (by simp)
  intro e he
  exact List.mem_range'_1.mp (hperm.mem_iff.mpr (List.mem_map.mpr ⟨e, he, rfl⟩))

/-- `SPAN_CHECK` accepts a block, and gives its least key and its number of keys (R143). -/
theorem spanCheck_of_span {w : ByteMap} {lo n : Nat} (h : SpanOf w lo n) : spanCheck w = .ok (BitVec.ofNat 8 lo, n) := by
  have hmin := minKey_of_span h
  obtain ⟨hlen, hpos, hmax, _, hall⟩ := h
  have hcont : contiguousFrom w lo = true := (contiguousFrom_iff w lo).mpr (by rwa [hlen])
  rw [spanCheck, hlen, hmin, if_neg (show ¬ (n < 1 ∨ n > Config.maxXfer) by simp only [Config.maxXfer]; omega),
    if_pos hcont]

/-- `SPAN_CHECK` refuses every map that is no block (R143). -/
theorem spanCheck_of_not_span {w : ByteMap} (h : ¬ ∃ lo n, SpanOf w lo n) : spanCheck w = .error .invalidWriteSpan := by
  rcases spanCheck_cases w with herr | ⟨_, hpos, hmax, hcont⟩
  · exact herr
  · exact absurd ⟨minKey w, w.length, rfl, hpos, hmax, key_lt_of_contiguousFrom hcont,
      (contiguousFrom_iff w _).mp hcont⟩ h

/-! ## `MEMSET_BUILD` (R95) -/

theorem mem_memsetAssignment (w : ByteMap) (start : Byte) (n : Nat) (k v : Byte) :
    (k, v) ∈ memsetAssignment w start n ↔ k = 2 ∧ v = start ∨ k = 3 ∧ v = BitVec.ofNat 8 n ∨
      ∃ j < n, k = BitVec.ofNat 8 (4 + j) ∧ v = (lookupKey w (start + BitVec.ofNat 8 j)).getD 0 := by
  simp [memsetAssignment, eq_comm]

theorem toNat_dataIndex {j : Nat} (hj : j < 10) : (BitVec.ofNat 8 (4 + j)).toNat = 4 + j := by
  rw [BitVec.toNat_ofNat]
  omega

theorem memsetAssignment_keysDistinct (w : ByteMap) (start : Byte) {n : Nat} (hn : n ≤ 10) :
    KeysDistinct (memsetAssignment w start n) := by
  have hdata : ((List.range n).map fun j => BitVec.ofNat 8 (4 + j)).Nodup := by
    refine List.Nodup.map_on (fun i hi j hj hij => ?_) List.nodup_range
    have hi := List.mem_range.mp hi
    have hj := List.mem_range.mp hj
    have hnat := congrArg BitVec.toNat hij
    rw [toNat_dataIndex (by omega), toNat_dataIndex (by omega)] at hnat
    omega
  have hnotData : ∀ k : Byte, k.toNat < 4 → k ∉ (List.range n).map fun j => BitVec.ofNat 8 (4 + j) := by
    rintro k hk hmem
    obtain ⟨j, hj, rfl⟩ := List.mem_map.mp hmem
    rw [toNat_dataIndex (by have := List.mem_range.mp hj; omega)] at hk
    omega
  have hkeys : (memsetAssignment w start n).map Prod.fst
      = 2 :: 3 :: (List.range n).map fun j => BitVec.ofNat 8 (4 + j) := by
    simp [memsetAssignment, Function.comp_def]
  rw [KeysDistinct, hkeys, List.nodup_cons, List.nodup_cons, List.mem_cons, not_or]
  exact ⟨⟨by decide, hnotData 2 (by decide)⟩, hnotData 3 (by decide), hdata⟩

theorem memsetAssignment_index_le (w : ByteMap) (start : Byte) {n : Nat} (hn : n ≤ 10) :
    ∀ e ∈ memsetAssignment w start n, e.1.toNat ≤ 13 := by
  rintro ⟨k, v⟩ he
  rcases (mem_memsetAssignment w start n k v).mp he with ⟨rfl, _⟩ | ⟨rfl, _⟩ | ⟨j, hj, rfl, _⟩
  · exact (show 2 ≤ 13 by decide)
  · exact (show 3 ≤ 13 by decide)
  · rw [toNat_dataIndex (by omega)]
    omega

/-- A parameter index below 2 or behind the data of the window is not assigned. -/
theorem not_mem_memsetAssignment (w : ByteMap) (start : Byte) {n : Nat} (hn : n ≤ 10) {k : Byte}
    (hk : k.toNat < 2 ∨ 4 + n ≤ k.toNat) (v : Byte) : (k, v) ∉ memsetAssignment w start n := by
  intro hmem
  rcases (mem_memsetAssignment w start n k v).mp hmem with ⟨rfl, _⟩ | ⟨rfl, _⟩ | ⟨j, hj, rfl, _⟩
  · have : (2 : Byte).toNat = 2 := rfl
    omega
  · have : (3 : Byte).toNat = 3 := rfl
    omega
  · rw [toNat_dataIndex (by omega)] at hk
    omega

section
variable {w : ByteMap} {start : Byte} {n : Nat} {F : Bytes}

theorem getD_start_of_build_memset (hn : n ≤ 10) (h : build 0x07 (memsetAssignment w start n) = .ok F) :
    F.getD 4 0 = start :=
  getD_of_build_of_mem h (memsetAssignment_keysDistinct w start hn)
    ((mem_memsetAssignment w start n 2 start).mpr (.inl ⟨rfl, rfl⟩))

theorem getD_length_of_build_memset (hn : n ≤ 10) (h : build 0x07 (memsetAssignment w start n) = .ok F) :
    F.getD 5 0 = BitVec.ofNat 8 n :=
  getD_of_build_of_mem h (memsetAssignment_keysDistinct w start hn)
    ((mem_memsetAssignment w start n 3 _).mpr (.inr (.inl ⟨rfl, rfl⟩)))

theorem getD_data_of_build_memset (hn : n ≤ 10) (h : build 0x07 (memsetAssignment w start n) = .ok F) {j : Nat}
    (hj : j < n) : F.getD (6 + j) 0 = (lookupKey w (start + BitVec.ofNat 8 j)).getD 0 := by
  have hbyte := getD_of_build_of_mem h (memsetAssignment_keysDistinct w start hn)
    ((mem_memsetAssignment w start n _ _).mpr (.inr (.inr ⟨j, hj, rfl, rfl⟩)))
  rwa [toNat_dataIndex (by omega), show 4 + j + 2 = 6 + j by omega] at hbyte

theorem getD_unused_of_build_memset (hn : n ≤ 10) (h : build 0x07 (memsetAssignment w start n) = .ok F) {j : Nat}
    (hnj : n ≤ j) (hj : j < 10) : F.getD (6 + j) 0 = 0 := by
  have hindex := toNat_dataIndex hj
  have hbyte := getD_of_build_of_not_mem h (k := BitVec.ofNat 8 (4 + j)) (by omega)
    (not_mem_memsetAssignment w start hn (.inr (by omega)))
  rwa [hindex, show 4 + j + 2 = 6 + j by omega] at hbyte

end

theorem lo_lt_of_span {w : ByteMap} {lo n : Nat} (h : SpanOf w lo n) : lo < 256 := by
  obtain ⟨_, hpos, _, _, hall⟩ := h
  obtain ⟨e, _, hkey⟩ := hall 0 hpos
  have := e.1.isLt
  omega

/-- Settles O7: `SPAN_CHECK` decides, and the frame of a block is that of `memsetAssignment`. -/
theorem memsetBuildRequest : Obligations.MemsetBuildRequest := by
  intro w s hw
  refine ⟨⟨mapBytes w, rfl⟩, fun hno => ?_, fun lo n hspan => ?_⟩
  · rw [exec_memsetBuild, memsetBuild, spanCheck_of_not_span hno, Res.bind_error, Res.map_error]
  have hcheck := spanCheck_of_span hspan
  have hlo : (BitVec.ofNat 8 lo).toNat = lo := Nat.mod_eq_of_lt (lo_lt_of_span hspan)
  obtain ⟨_, hpos, hmax, hrange, _⟩ := hspan
  have hn : (BitVec.ofNat 8 n).toNat = n := Nat.mod_eq_of_lt (by omega)
  have hbuild := build_known 0x07 (memsetAssignment w (BitVec.ofNat 8 lo) n) rfl
    (memsetAssignment_index_le w _ hmax)
  refine ⟨_, by rw [exec_memsetBuild, memsetBuild, hcheck, Res.bind_ok, hbuild, Res.map_ok], valid_of_build hbuild,
    getD_one_of_build hbuild, ?reserved0, ?reserved1, ?start, ?length, fun a v hav => ?data,
    fun j hnj hj => getD_unused_of_build_memset hmax hbuild hnj hj⟩
  case reserved0 =>
    exact getD_of_build_of_not_mem hbuild (k := 0) (by decide) (not_mem_memsetAssignment w _ hmax (.inl (by decide)))
  case reserved1 =>
    exact getD_of_build_of_not_mem hbuild (k := 1) (by decide) (not_mem_memsetAssignment w _ hmax (.inl (by decide)))
  case start => rw [getD_start_of_build_memset hmax hbuild, hlo]
  case length => rw [getD_length_of_build_memset hmax hbuild, hn]
  case data =>
    obtain ⟨hge, hlt⟩ : lo ≤ a.toNat ∧ a.toNat < lo + n := hrange _ hav
    have haddr : BitVec.ofNat 8 lo + BitVec.ofNat 8 (a.toNat - lo) = a := by
      rw [← BitVec.ofNat_add, Nat.add_sub_cancel' hge, BitVec.ofNat_toNat, BitVec.setWidth_eq]
    rw [getD_data_of_build_memset hmax hbuild (by omega), haddr, lookupKey_of_mem hw hav]
    rfl

/-! ## Every built frame is valid (R96) -/

/-- R96: the five building operations answer valid frames only. -/
theorem valid_of_built {i : Instr} {s : State} {F : Bytes}
    (hi : (∃ c A, i = .build c A) ∨ (∃ v, i = .serialize v) ∨ i = .statusBuild ∨ (∃ a n, i = .memgetBuild a n)
      ∨ ∃ w, i = .memsetBuild w)
    (h : exec i s = .next { s with results := s.results ++ [.ok (.bytes F)] }) : ValidFrame F := by
  rcases hi with ⟨c, A, rfl⟩ | ⟨v, rfl⟩ | rfl | ⟨a, n, rfl⟩ | ⟨w, rfl⟩
  · exact valid_of_build (ok_of_posted_bytes h)
  · exact valid_of_serialize (ok_of_posted_bytes h)
  · exact valid_of_build (ok_of_posted_bytes h)
  · exact valid_of_memgetBuild (ok_of_posted_bytes h)
  · exact valid_of_memsetBuild (ok_of_posted_bytes h)

/-- Settles O8: a built frame is valid (`valid_of_built`), and `RXCHECK` accepts what is valid, whatever the state. -/
theorem builtFramesPassRxcheck : Obligations.BuiltFramesPassRxcheck := by
  intro i s F hi h
  have hvalid := valid_of_built hi h
  exact ⟨hvalid.1, hvalid.2.1, checksum_of_valid hvalid, fun t => by
    rw [exec_rxcheck, rxcheck_of_valid hvalid, Res.map_ok]⟩

end Sys2Proof.Machine
end

section
/-! The frame validator and parser (42_frame_parse): what `RXCHECK`, `PARSE` and the raw decoders answer on a byte string
that fails validation and on a frame of each command, and the round trip between `PARSE` and `SERIALIZE`. -/

namespace Sys2Proof.Machine

/-! ## What the four operations post -/

theorem Res.map_map {α β γ : Type} (f : α → β) (g : β → γ) (r : Res α) : (r.map f).map g = r.map fun a => g (f a) := by
  cases r <;> rfl

theorem exec_parse (b : Bytes) (s : State) :
    exec (.parse b) s = .next { s with results := s.results ++ [(parse s.cfg.val b).map .payload] } := rfl

theorem exec_statusDec (b : Bytes) (s : State) : exec (.statusDec b) s
    = .next { s with results := s.results ++ [(rawFrame 0x03 b).map fun F => .flag (isTrue (byteAt F 6))] } := by
  rw [← Res.map_map]
  rfl

theorem exec_powerDec (b : Bytes) (s : State) : exec (.powerDec b) s
    = .next { s with results := s.results ++ [(rawFrame 0x04 b).map fun F => .payload (powerDetailsOf F)] } := by
  rw [← Res.map_map]
  rfl

theorem exec_memsetAck (b : Bytes) (s : State) : exec (.memsetAck b) s
    = .next { s with results := s.results ++ [(rawFrame 0x07 b).map fun _ => .unit] } := by
  rw [← Res.map_map (fun _ => ()) (fun _ => Val.unit)]
  rfl

/-- A parse that posts a payload has parsed it. -/
theorem ok_of_posted_payload {s : State} {r : Res Payload} {v : Payload}
    (h : (.next { s with results := s.results ++ [r.map .payload] } : Outcome)
      = .next { s with results := s.results ++ [.ok (.payload v)] }) : r = .ok v := by
  obtain ⟨w, hw, hv⟩ := Res.map_eq_ok.mp (result_eq_of_next_eq h)
  cases hv
  exact hw

/-! ## `RXCHECK` (R98) -/

/-- Settles O10: the tests of `RXCHECK` are those of the statement, `k` being the checksum of the first sixteen bytes. -/
theorem rxcheckTestsInOrder : Obligations.RxcheckTestsInOrder := by
  intro b s
  refine ⟨⟨seqBytes b, rfl⟩, ck (b.take 16), ck_toNat _, ?_⟩
  simp only [exec_rxcheck, rxcheck, apply_ite (Res.map Val.bytes), Res.map_error, Res.map_ok]
  rfl

/-! ## Fields of a frame (R65, R115) -/

theorem isTrue_eq_decide (b : Byte) : isTrue b = decide (b ≠ 0) := by
  simp only [isTrue, ne_eq, decide_not]
  rfl

theorem isTrue_ofFlag (f : Bool) : isTrue (ofFlag f) = f := by
  cases f <;> rfl

theorem ofFlag_eq_zero_iff (f : Bool) : ofFlag f = 0 ↔ f = false := by
  cases f <;> decide

/-- R35: the two bytes of a 16-bit value as a number. -/
theorem be16_eq_ofNat (h l : Byte) : be16 h l = BitVec.ofNat 16 (h.toNat * 256 + l.toNat) := by
  rw [← be16_toNat, BitVec.ofNat_toNat, BitVec.setWidth_eq]

theorem powerDetailsOf_eq (b : Bytes) : powerDetailsOf b = .powerDetails (byteAt b 6) (decide (byteAt b 7 ≠ 0))
    (BitVec.ofNat 16 ((byteAt b 8).toNat * 256 + (byteAt b 9).toNat)) := by
  rw [powerDetailsOf, isTrue_eq_decide, be16_eq_ofNat]

/-! ## The raw decoders (R108, R109, R111) -/

theorem rawFrame_of_invalid {b : Bytes} {e : Err} (h : validationError b = some e) (c : Byte) :
    rawFrame c b = .error e := by
  rw [rawFrame_eq, h]

theorem rawFrame_of_valid {b : Bytes} (h : validationError b = none) (c : Byte) :
    rawFrame c b = if byteAt b 1 ≠ c then .refused .wrongCommand else .ok b := by
  rw [rawFrame_eq, h]

/-- Settles O13: `rawFrame` makes the tests for all three decoders; what is left is what each reads of the frame. -/
theorem rawDecodersByCommand : Obligations.RawDecodersByCommand := by
  intro b s
  refine ⟨⟨seqBytes b, rfl⟩, ⟨seqBytes b, rfl⟩, ⟨seqBytes b, rfl⟩, ?_⟩
  rw [exec_statusDec, exec_powerDec, exec_memsetAck]
  cases hv : validationError b with
  | some e =>
    simp only [rawFrame_of_invalid hv, Res.map_error, and_self]
  | none =>
    simp only [rawFrame_of_valid hv, apply_ite (Res.map _), Res.map_refused, Res.map_ok, powerDetailsOf_eq,
      isTrue_eq_decide]
    exact ⟨rfl, rfl, rfl⟩

/-! ## The frames that `PARSE` compares with (R100 to R104) -/

theorem serialize_requestPowerDetails (t : Config.Tables) :
    serialize t .requestPowerDetails = .ok [0x08, 0x04, 0, 0, 0, 0, 0, 0, 0, 0, 0, 0, 0, 0, 0, 0, 0x49] :=
  build_bare 0x04 rfl

theorem serialize_restore (t : Config.Tables) :
    serialize t .restore = .ok [0x08, 0x09, 0, 0, 0, 0, 0, 0, 0, 0, 0, 0, 0, 0, 0, 0, 0x44] :=
  build_bare 0x09 rfl

theorem serialize_requestActiveProfile (t : Config.Tables) :
    serialize t .requestActiveProfile = .ok [0x08, 0x0e, 0, 0, 0, 0, 0, 0, 0, 0, 0, 0, 0, 0, 0, 0, 0x3f] :=
  build_bare 0x0e rfl

theorem conforming_eq_ok {t : Config.Tables} {F : Bytes} {v w : Payload} (h : conforming t F v = .ok w) :
    serialize t w = .ok F := by
  unfold conforming at h
  split at h
  · cases h
    assumption
  · cases h

/-- The round-trip test against a canonical frame that is known (R107). -/
theorem conforming_eq {t : Config.Tables} {v : Payload} {C : Bytes} (h : serialize t v = .ok C) (F : Bytes) :
    conforming t F v = if F = C then .ok v else .error .unexpectedResponse := by
  simp only [conforming, h, Res.ok.injEq, eq_comm]

/-! ## `PARSE`, one equation per command (R99 to R106) -/

theorem parse_of_invalid {b : Bytes} {e : Err} (h : validationError b = some e) (t : Config.Tables) :
    parse t b = .error e := by
  rw [parse, rxcheck_eq, h, Res.bind_error]

theorem parse_of_valid {b : Bytes} (h : ValidFrame b) (t : Config.Tables) : parse t b = parseFrame t b := by
  rw [parse, rxcheck_of_valid h, Res.bind_ok]

section
variable (t : Config.Tables) {F : Bytes}

theorem parseFrame_power (h : byteAt F 1 = 0x04) : parseFrame t F
    = if F = [0x08, 0x04, 0, 0, 0, 0, 0, 0, 0, 0, 0, 0, 0, 0, 0, 0, 0x49] then .ok .requestPowerDetails
      else .ok (powerDetailsOf F) := by
  simp only [parseFrame, cmdPower, h, if_true, serialize_requestPowerDetails, Res.ok.injEq, eq_comm]

theorem parseFrame_restore (h : byteAt F 1 = 0x09) : parseFrame t F
    = if F = [0x08, 0x09, 0, 0, 0, 0, 0, 0, 0, 0, 0, 0, 0, 0, 0, 0, 0x44] then .ok .restore
      else .error .unexpectedResponse := by
  rw [← conforming_eq (serialize_restore t), parseFrame, h]
  rfl

theorem parseFrame_deviceEvent (h : byteAt F 1 = 0x0a) : parseFrame t F
    = if byteAt F 6 = t.ekUnknown1 then .ok (.deviceEvent .unknown1)
      else if byteAt F 6 = t.ekDpiMode then .ok (.deviceEvent .dpiMode)
      else if byteAt F 6 = t.ekPower then .ok (.deviceEvent .power)
      else .error .unknownDeviceEvent := by
  rw [parseFrame, h, if_neg (by decide), if_neg (by decide), if_pos (by rfl), kindOf]
  split_ifs <;> rfl

theorem parseFrame_profileSet (h : byteAt F 1 = 0x0f) : parseFrame t F
    = if F = [0x08, 0x0f, 0, 0, 0, 0x01, byteAt F 6, 0, 0, 0, 0, 0, 0, 0, 0, 0, 0x3d - byteAt F 6] then
        .ok (.setActiveProfile (byteAt F 6))
      else .error .unexpectedResponse := by
  rw [← conforming_eq (serialize_setActiveProfile t _), parseFrame, h]
  rfl

theorem parseFrame_profileGet (h : byteAt F 1 = 0x0e) : parseFrame t F
    = if F = [0x08, 0x0e, 0, 0, 0, 0, 0, 0, 0, 0, 0, 0, 0, 0, 0, 0, 0x3f] then .ok .requestActiveProfile
      else if F = [0x08, 0x0e, 0, 0, 0, t.capP3, byteAt F 6, 0, 0, 0, 0, 0, 0, 0, 0, 0, 0x3f - t.capP3 - byteAt F 6] then
        .ok (.currentActiveProfile (byteAt F 6))
      else .error .unexpectedResponse := by
  rw [← conforming_eq (serialize_currentActiveProfile t _)]
  simp [parseFrame, h, cmdPower, cmdRestore, cmdDeviceEvent, cmdProfileSet, cmdProfileGet,
    serialize_requestActiveProfile, eq_comm]

theorem parseFrame_notImplemented (h : byteAt F 1 = 0x03 ∨ byteAt F 1 = 0x07 ∨ byteAt F 1 = 0x08) :
    parseFrame t F = .error .notImplemented := by
  rcases h with h | h | h <;>
  · rw [parseFrame, h]
    rfl

theorem parseFrame_unknown (h : byteAt F 1 ∉ ([0x03, 0x04, 0x07, 0x08, 0x09, 0x0a, 0x0e, 0x0f] : Bytes)) :
    parseFrame t F = .error .unknownCommand := by
  simp only [List.mem_cons, List.not_mem_nil, or_false, not_or] at h
  simp only [parseFrame, h, cmdPower, cmdRestore, cmdDeviceEvent, cmdProfileSet, cmdProfileGet, cmdStatus, cmdMemSet,
    cmdMemGet, if_false, or_self]

end

/-- Settles O11: the tests of the statement in their order, each arm by the equation of its command. -/
theorem parseByCommand : Obligations.ParseByCommand := by
  intro b s
  refine ⟨⟨seqBytes b, rfl⟩, ?_⟩
  rw [exec_parse]
  cases hv : validationError b with
  | some e => simp only [parse_of_invalid hv, Res.map_error]
  | none =>
    rw [parse_of_valid (validationError_eq_none.mp hv)]
    simp only
    by_cases hunknown : b.getD 1 0 ∉ ([0x03, 0x04, 0x07, 0x08, 0x09, 0x0a, 0x0e, 0x0f] : Bytes)
    · rw [if_pos hunknown, parseFrame_unknown _ hunknown, Res.map_error]
    rw [if_neg hunknown]
    by_cases hraw : b.getD 1 0 = 0x03 ∨ b.getD 1 0 = 0x07 ∨ b.getD 1 0 = 0x08
    · rw [if_pos hraw, parseFrame_notImplemented _ hraw, Res.map_error]
    rw [if_neg hraw]
    by_cases hpower : b.getD 1 0 = 0x04
    · rw [if_pos hpower, parseFrame_power _ hpower, apply_ite (Res.map _), powerDetailsOf_eq, Res.map_ok, Res.map_ok]
      rfl
    rw [if_neg hpower]
    by_cases hrestore : b.getD 1 0 = 0x09
    · rw [if_pos hrestore, parseFrame_restore _ hrestore, apply_ite (Res.map _), Res.map_ok, Res.map_error]
    rw [if_neg hrestore]
    by_cases hevent : b.getD 1 0 = 0x0a
    · rw [if_pos hevent, parseFrame_deviceEvent _ hevent]
      simp only [apply_ite (Res.map _), Res.map_ok, Res.map_error]
      rfl
    rw [if_neg hevent]
    by_cases hset : b.getD 1 0 = 0x0f
    · rw [if_pos hset, parseFrame_profileSet _ hset, apply_ite (Res.map _), Res.map_ok, Res.map_error]
      rfl
    have hget : b.getD 1 0 = 0x0e := by
      simp only [List.mem_cons, List.not_mem_nil, or_false] at hunknown
      tauto
    rw [if_neg hset, parseFrame_profileGet _ hget]
    simp only [apply_ite (Res.map _), Res.map_ok, Res.map_error]
    rfl

/-! ## What parses to a variant (R107) -/

/-- Everything `PARSE` can answer with `Ok`: the payload whose canonical frame this is, or one of the two variants that
are not compared with a canonical frame (R100, R102). The arms with an `Ok` come in the order of the dispatch: POWER twice,
RESTORE, DEVICE_EVENT, ACTIVE_PROFILE_SET, ACTIVE_PROFILE_GET twice. -/
theorem parseFrame_eq_ok {t : Config.Tables} {F : Bytes} {v : Payload} (h : parseFrame t F = .ok v) :
    serialize t v = .ok F ∨ v = powerDetailsOf F ∨ ∃ e, v = .deviceEvent e := by
  unfold parseFrame at h
  split_ifs at h with hpower hbare hrestore hevent hset hget hreq
  · cases h
    exact .inl hbare
  · cases h
    exact .inr (.inl rfl)
  · exact .inl (conforming_eq_ok h)
  · split at h
    · cases h
      exact .inr (.inr ⟨_, rfl⟩)
    · cases h
  · exact .inl (conforming_eq_ok h)
  · cases h
    exact .inl hreq
  · exact .inl (conforming_eq_ok h)

theorem parse_eq_ok {t : Config.Tables} {b : Bytes} {v : Payload} (h : parse t b = .ok v) :
    serialize t v = .ok b ∨ v = powerDetailsOf b ∨ ∃ e, v = .deviceEvent e := by
  obtain ⟨F, hF, hv⟩ := Res.bind_eq_ok.mp h
  obtain ⟨_, rfl⟩ := (rxcheck_eq_ok_iff b F).mp hF
  exact parseFrame_eq_ok hv

/-- Settles O12: `parse_eq_ok`, where the five variants exclude the two that are not compared. -/
theorem parsedFrameIsCanonical : Obligations.ParsedFrameIsCanonical := by
  intro b s v h hchecked
  rcases parse_eq_ok (ok_of_posted_payload h) with hcanon | rfl | ⟨e, rfl⟩
  · rw [exec_serialize, hcanon, Res.map_ok]
  · simp [powerDetailsOf] at hchecked
  · simp at hchecked

/-! ## The round trip (R113) -/

theorem parse_of_serialize {t : Config.Tables} {v : Payload} {F : Bytes} (h : serialize t v = .ok F) :
    parse t F = parseFrame t F :=
  parse_of_valid (valid_of_serialize h) t

/-- R63: well-formed tables have three different kind bytes. -/
theorem kinds_distinct (t : Config.WfTables) :
    t.val.ekUnknown1 ≠ t.val.ekDpiMode ∧ t.val.ekUnknown1 ≠ t.val.ekPower ∧ t.val.ekDpiMode ≠ t.val.ekPower := by
  have hwf := t.property
  simp only [Config.Tables.wf, Config.Tables.kindsOk, Bool.and_eq_true, bne_iff_ne] at hwf
  obtain ⟨⟨_, ⟨hud, hup⟩, hdp⟩, _⟩ := hwf
  exact ⟨hud, hup, hdp⟩

theorem capP3_ne_zero (t : Config.WfTables) : t.val.capP3 ≠ 0 := by
  have hwf := t.property
  simp only [Config.Tables.wf, Config.Tables.capOk, Bool.and_eq_true, bne_iff_ne] at hwf
  exact hwf.2

/-- R97: only `PowerDetails{0, false, 0}` has the frame of the bare request. -/
theorem powerDetails_bytes_zero_iff (b : Byte) (f : Bool) (m : BitVec 16) :
    (b = 0 ∧ ofFlag f = 0 ∧ hi16 m = 0 ∧ lo16 m = 0) ↔ Payload.powerDetails b f m = .powerDetails 0 false 0 := by
  constructor
  · rintro ⟨rfl, hf, hh, hl⟩
    rw [(ofFlag_eq_zero_iff f).mp hf, ← be16_hi_lo m, hh, hl]
    rfl
  · intro h
    cases h
    decide

theorem parse_serialize_powerDetails (t : Config.Tables) (b : Byte) (f : Bool) (m : BitVec 16) :
    ∃ F, serialize t (.powerDetails b f m) = .ok F ∧ parse t F = .ok
      (if Payload.powerDetails b f m = .powerDetails 0 false 0 then .requestPowerDetails else .powerDetails b f m) := by
  have hF := serialize_powerDetails t b f m
  refine ⟨_, hF, ?_⟩
  rw [parse_of_serialize hF, parseFrame_power t rfl]
  by_cases hzero : b = 0 ∧ ofFlag f = 0 ∧ hi16 m = 0 ∧ lo16 m = 0
  · rw [if_pos ((powerDetails_bytes_zero_iff b f m).mp hzero)]
    obtain ⟨rfl, hf, hh, hl⟩ := hzero
    rw [hf, hh, hl]
    rfl
  · rw [if_neg (mt (powerDetails_bytes_zero_iff b f m).mpr hzero), if_neg]
    · show Res.ok (Payload.powerDetails b (isTrue (ofFlag f)) (be16 (hi16 m) (lo16 m))) = _
      rw [isTrue_ofFlag, be16_hi_lo]
    · intro hbare
      exact hzero ⟨congrArg (byteAt · 6) hbare, congrArg (byteAt · 7) hbare, congrArg (byteAt · 8) hbare,
        congrArg (byteAt · 9) hbare⟩

theorem parse_serialize_deviceEvent (t : Config.WfTables) (e : EventKind) :
    ∃ F, serialize t.val (.deviceEvent e) = .ok F ∧ parse t.val F = .ok (.deviceEvent e) := by
  have hF := serialize_deviceEvent t.val e
  refine ⟨_, hF, ?_⟩
  rw [parse_of_serialize hF, parseFrame_deviceEvent t.val rfl]
  obtain ⟨hud, hup, hdp⟩ := kinds_distinct t
  cases e with
  | unknown1 => exact if_pos rfl
  | dpiMode => exact (if_neg hud.symm).trans (if_pos rfl)
  | power => exact (if_neg hup.symm).trans ((if_neg hdp.symm).trans (if_pos rfl))

/-- The frame of `CurrentActiveProfile` is not the bare request, since well-formed tables have `CAP_P3` other than zero. -/
theorem parse_serialize_currentActiveProfile (t : Config.WfTables) (p : Byte) :
    ∃ F, serialize t.val (.currentActiveProfile p) = .ok F ∧ parse t.val F = .ok (.currentActiveProfile p) := by
  have hF := serialize_currentActiveProfile t.val p
  refine ⟨_, hF, ?_⟩
  rw [parse_of_serialize hF, parseFrame_profileGet t.val rfl, if_neg]
  · exact if_pos rfl
  · intro hbare
    exact capP3_ne_zero t (congrArg (byteAt · 5) hbare)

/-- R113: what `PARSE` answers on the canonical frame of a payload. -/
theorem parse_serialize (t : Config.WfTables) (v : Payload) :
    ∃ F, serialize t.val v = .ok F
      ∧ parse t.val F = .ok (if v = .powerDetails 0 false 0 then .requestPowerDetails else v) := by
  cases v with
  | powerDetails b f m => exact parse_serialize_powerDetails t.val b f m
  | deviceEvent e => exact parse_serialize_deviceEvent t e
  | currentActiveProfile p => exact parse_serialize_currentActiveProfile t p
  | setActiveProfile p =>
    have hF := serialize_setActiveProfile t.val p
    exact ⟨_, hF, by rw [parse_of_serialize hF, parseFrame_profileSet t.val rfl]; exact if_pos rfl⟩
  | restore =>
    have hF := serialize_restore t.val
    exact ⟨_, hF, by rw [parse_of_serialize hF, parseFrame_restore t.val rfl]; exact if_pos rfl⟩
  | requestActiveProfile =>
    have hF := serialize_requestActiveProfile t.val
    exact ⟨_, hF, by rw [parse_of_serialize hF, parseFrame_profileGet t.val rfl]; exact if_pos rfl⟩
  | requestPowerDetails =>
    have hF := serialize_requestPowerDetails t.val
    exact ⟨_, hF, by rw [parse_of_serialize hF, parseFrame_power t.val rfl]; exact if_pos rfl⟩

/-- Settles O9: `parse_serialize`, in every state that has the same tables. -/
theorem variantRoundTrip : Obligations.VariantRoundTrip := by
  intro v s
  obtain ⟨F, hF, hparse⟩ := parse_serialize s.cfg v
  refine ⟨F, by rw [exec_serialize, hF, Res.map_ok], fun t ht => ?_⟩
  rw [exec_parse, ht, hparse, Res.map_ok]

end Sys2Proof.Machine
end

section
/-! The DPI converter (43_dpi): what the encoder and the decoder answer, by number and not by bit operation, and the round
trip of R121. -/

namespace Sys2Proof.Machine

/-! ## The encoder (R119) -/

theorem exec_dpiEnc (d : BitVec 32) (s : State) :
    exec (.dpiEnc d) s = .next { s with results := s.results ++ [(dpiEnc d).map .bytes] } := rfl

/-- R118: the `q` of a DPI value. -/
def dpiQuotient (d : BitVec 32) : Nat := d.toNat / 50 - 1

/-- R119: `q` is at most 519 in range, so its factor is 0, 1 or 2. -/
theorem dpiQuotient_factor_lt {d : BitVec 32} (hd : d.toNat ≤ 26000) : dpiQuotient d / 256 < 3 := by
  unfold dpiQuotient
  omega

/-- R118: a valid DPI value is `(q + 1) * 50`. -/
theorem dpiQuotient_succ_mul {d : BitVec 32} (hlo : 50 ≤ d.toNat) (hmul : d.toNat % 50 = 0) :
    (dpiQuotient d + 1) * 50 = d.toNat := by
  unfold dpiQuotient
  omega

/-- R119 in the order of its tests, with the constants of R118 written out. -/
theorem dpiEnc_eq (d : BitVec 32) : dpiEnc d =
    if d.toNat < 50 ∨ 26000 < d.toNat then .error .outOfRange
    else if d.toNat % 50 ≠ 0 then .error .notAMultiple
    else .ok [BitVec.ofNat 8 (dpiQuotient d % 256), BitVec.ofNat 8 (dpiQuotient d % 256),
      packFactor (dpiQuotient d / 256)] := rfl

theorem dpiEnc_of_valid {d : BitVec 32} (hlo : 50 ≤ d.toNat) (hhi : d.toNat ≤ 26000) (hmul : d.toNat % 50 = 0) :
    dpiEnc d = .ok [BitVec.ofNat 8 (dpiQuotient d % 256), BitVec.ofNat 8 (dpiQuotient d % 256),
      packFactor (dpiQuotient d / 256)] := by
  rw [dpiEnc_eq, if_neg (by omega), if_neg (by omega)]

/-- R118: the two copies of a factor stand apart, so that the third byte is their sum; the mask removes no bit. -/
theorem packFactor_toNat {f : Nat} (hf : f < 4) : (packFactor f).toNat = f * 4 + f * 64 := by
  decide +revert

/-- Settles O15: the two tests are `dpiEnc_eq`; the bytes are the remainder of the quotient and its packed factor. -/
theorem dpiEncThreeBytes : Obligations.DpiEncThreeBytes := by
  intro d s
  refine ⟨⟨word32Bytes d, rfl⟩, packFactor (dpiQuotient d / 256), BitVec.ofNat 8 (dpiQuotient d % 256), ?_,
    fun _ hhi => ⟨?lo, ?q2⟩⟩
  · simp only [exec_dpiEnc, dpiEnc_eq, apply_ite (Res.map _), Res.map_error, Res.map_ok]
  case lo =>
    rw [BitVec.toNat_ofNat, dpiQuotient]
    omega
  case q2 =>
    have hf : dpiQuotient d / 256 < 3 := dpiQuotient_factor_lt hhi
    exact packFactor_toNat (by omega)

/-! ## The decoder (R120) -/

theorem exec_dpiDec (raw0 raw1 raw2 : Byte) (s : State) :
    exec (.dpiDec raw0 raw1 raw2) s
      = .next { s with results := s.results ++ [(dpiDec raw0 raw1 raw2).map .dpi] } := rfl

/-- A nibble has no bit but 2 and 3 exactly if it is a multiple of 4. -/
theorem nibble_eq_and_twelve_iff {n : Nat} (hn : n < 16) : n = (n &&& 0b1100) ↔ n % 4 = 0 := by
  decide +revert

/-- R120: the second and the third test of the decoder leave four third bytes. -/
theorem legalThirdByte_iff (b : Byte) : b ∈ ([0x00, 0x44, 0x88, 0xcc] : Bytes) ↔
    b.toNat % 16 = b.toNat / 16 ∧ b.toNat % 16 = (b.toNat % 16 &&& 0b1100) := by
  have hlt : b.toNat < 256 := b.isLt
  rw [nibble_eq_and_twelve_iff (by omega)]
  simp only [List.mem_cons, List.not_mem_nil, or_false]
  bv_omega

/-- R120 as one test, with the factor read from the top two bits of the third byte. -/
theorem dpiDec_eq (raw0 raw1 raw2 : Byte) : dpiDec raw0 raw1 raw2 =
    if raw0 = raw1 ∧ raw2 ∈ ([0x00, 0x44, 0x88, 0xcc] : Bytes) then
      .ok (BitVec.ofNat 32 ((raw1.toNat + 1) * 50 + raw2.toNat / 64 * 12800))
    else .error .inconsistent := by
  simp only [dpiDec, legalThirdByte_iff]
  by_cases hdup : raw0 = raw1
  · by_cases hnib : raw2.toNat % 16 = raw2.toNat / 16
    · by_cases hbits : raw2.toNat % 16 = (raw2.toNat % 16 &&& 0b1100)
      · have hfactor : (raw2.toNat % 16) >>> 2 = raw2.toNat / 64 := by
          rw [hnib, Nat.shiftRight_eq_div_pow, Nat.div_div_eq_div_mul]
        rw [if_neg (not_not.mpr hdup), if_neg (not_not.mpr hnib), if_neg (not_not.mpr hbits), if_pos ⟨hdup, hnib, hbits⟩,
          hfactor]
      · rw [if_neg (not_not.mpr hdup), if_neg (not_not.mpr hnib), if_pos hbits, if_neg (fun ⟨_, _, h⟩ => hbits h)]
    · rw [if_neg (not_not.mpr hdup), if_pos hnib, if_neg (fun ⟨_, h, _⟩ => hnib h)]
  · rw [if_pos hdup, if_neg (fun ⟨h, _⟩ => hdup h)]

/-- R123: no sum of the decoder leaves 32 bits. -/
theorem dpiDec_value_toNat (raw1 raw2 : Byte) :
    (BitVec.ofNat 32 ((raw1.toNat + 1) * 50 + raw2.toNat / 64 * 12800)).toNat
      = (raw1.toNat + 1) * 50 + raw2.toNat / 64 * 12800 := by
  have hlt1 : raw1.toNat < 256 := raw1.isLt
  have hlt2 : raw2.toNat < 256 := raw2.isLt
  rw [BitVec.toNat_ofNat]
  omega

/-- Settles O16: the three tests are the one of `dpiDec_eq`, and the value does not wrap. -/
theorem dpiDecLegalTriples : Obligations.DpiDecLegalTriples := by
  intro raw0 raw1 raw2 s
  refine ⟨⟨[raw0, raw1, raw2], rfl⟩, _, dpiDec_value_toNat raw1 raw2, ?_⟩
  simp only [exec_dpiDec, dpiDec_eq, apply_ite (Res.map _), Res.map_error, Res.map_ok]

/-! ## The round trip (R121) -/

theorem packFactor_mem_legal {f : Nat} (hf : f < 4) : packFactor f ∈ ([0x00, 0x44, 0x88, 0xcc] : Bytes) := by
  decide +revert

/-- The decoder on the form of R118: a byte twice and a packed factor. -/
theorem dpiDec_packFactor (b : Byte) {f : Nat} (hf : f < 4) :
    dpiDec b b (packFactor f) = .ok (BitVec.ofNat 32 ((b.toNat + 1) * 50 + f * 12800)) := by
  have hfactor : (packFactor f).toNat / 64 = f := by
    rw [packFactor_toNat hf]
    omega
  rw [dpiDec_eq, if_pos ⟨rfl, packFactor_mem_legal hf⟩, hfactor]

/-- R121: quotient byte and factor put the quotient together again. -/
theorem dpiDec_of_dpiQuotient {d : BitVec 32} (hlo : 50 ≤ d.toNat) (hhi : d.toNat ≤ 26000) (hmul : d.toNat % 50 = 0) :
    dpiDec (BitVec.ofNat 8 (dpiQuotient d % 256)) (BitVec.ofNat 8 (dpiQuotient d % 256))
      (packFactor (dpiQuotient d / 256)) = .ok d := by
  have hf : dpiQuotient d / 256 < 3 := dpiQuotient_factor_lt hhi
  have hsum : (dpiQuotient d % 256 % 2 ^ 8 + 1) * 50 + dpiQuotient d / 256 * 12800 = d.toNat := by
    calc (dpiQuotient d % 256 % 2 ^ 8 + 1) * 50 + dpiQuotient d / 256 * 12800
        = (dpiQuotient d + 1) * 50 := by omega
      _ = d.toNat := dpiQuotient_succ_mul hlo hmul
  rw [dpiDec_packFactor _ (by omega), BitVec.toNat_ofNat, hsum, BitVec.ofNat_toNat, BitVec.setWidth_eq]

/-- Settles O17: the encoder passes both tests of a valid value, and `dpiDec_of_dpiQuotient` decodes what it answers. -/
theorem dpiRoundTrip : Obligations.DpiRoundTrip := by
  intro d s t hlo hhi hmul
  have henc : exec (.dpiEnc d) s = .next { s with results := s.results ++ [.ok (.bytes
      [BitVec.ofNat 8 (dpiQuotient d % 256), BitVec.ofNat 8 (dpiQuotient d % 256),
        packFactor (dpiQuotient d / 256)])] } := by
    rw [exec_dpiEnc, dpiEnc_of_valid hlo hhi hmul, Res.map_ok]
  refine ⟨_, _, _, henc, ?_⟩
  rw [exec_dpiDec, dpiDec_of_dpiQuotient hlo hhi hmul, Res.map_ok]

end Sys2Proof.Machine
end

section
/-! The mirror and the profile cache (45_mirror): what each operation puts into the state, and what the mirror reads as at
every address after a merge. -/

namespace Sys2Proof.Machine

/-! ## What the operations put into the state -/

@[simp] theorem State.merged_ok (s : State) (m : List Host.Cell) :
    s.merged (.ok m) = { s with mirror := m, results := s.results ++ [.ok .unit] } := rfl

@[simp] theorem State.merged_error (s : State) (e : Err) :
    s.merged (.error e) = { s with results := s.results ++ [.error e] } := rfl

@[simp] theorem State.merged_refused (s : State) (r : Reason) :
    s.merged (.refused r) = { s with results := s.results ++ [.refused r] } := rfl

theorem exec_spanCheck (w : ByteMap) (s : State) : exec (.spanCheck w) s
    = .next { s with results := s.results ++ [(spanCheck w).map fun p => .span p.1 p.2] } := rfl

theorem exec_mirRd (a : Byte) (s : State) :
    exec (.mirRd a) s = .next { s with results := s.results ++ [(readEntry s.mirror a).map .byte] } := rfl

theorem exec_mirEmpty (s : State) :
    exec .mirEmpty s = .next { s with results := s.results ++ [.ok (.flag (allInvalid s))] } := rfl

theorem exec_mirFill (start : Byte) (d : Bytes) (s : State) :
    exec (.mirFill start d) s = .next (s.merged (mirFill s.mirror start d)) := rfl

theorem exec_mirWr (w : ByteMap) (s : State) : exec (.mirWr w) s = .next (s.merged (mirWr s.mirror w)) := rfl

theorem exec_mirClr (s : State) : exec .mirClr s = .next (s.merged (.ok [])) := rfl

theorem exec_profRd (s : State) :
    exec .profRd s = .next { s with results := s.results ++ [(profRd s).map .byte] } := rfl

theorem exec_profWr (p : Byte) (s : State) :
    exec (.profWr p) s = .next { s with prof := some p, results := s.results ++ [.ok .unit] } := rfl

theorem exec_profClr (s : State) :
    exec .profClr s = .next { s with prof := none, results := s.results ++ [.ok .unit] } := rfl

/-! ## `SPAN_CHECK` (R143) -/

/-- Settles O20: a block is accepted (`spanCheck_of_span`) and nothing else is (`spanCheck_of_not_span`). -/
theorem spanCheckBlock : Obligations.SpanCheckBlock := by
  intro w s _
  refine ⟨⟨mapBytes w, rfl⟩, fun hno => ?_, fun lo n hspan => ⟨BitVec.ofNat 8 lo, ?_, ?_⟩⟩
  · rw [exec_spanCheck, spanCheck_of_not_span hno, Res.map_error]
  · exact Nat.mod_eq_of_lt (lo_lt_of_span hspan)
  · rw [exec_spanCheck, spanCheck_of_span hspan, Res.map_ok]

/-! ## `MIR_FILL` (R142) -/

/-- R142 in the order of its tests, with the constants written out. -/
theorem mirFill_eq (m : List Host.Cell) (start : Byte) (d : Bytes) : mirFill m start d =
    if d.length < 1 ∨ 10 < d.length then .refused .badLength
    else if 256 < start.toNat + d.length then .refused .addressOverflow
    else .ok (mirrorMerge m (windowCells start.toNat d)) := rfl

theorem mirrorGet_merge_window_at (m : List Host.Cell) (start : Nat) {d : Bytes} {j : Nat} (hj : j < d.length) :
    mirrorGet (mirrorMerge m (windowCells start d)) (start + j) = some (d.getD j 0) := by
  rw [mirrorGet_merge_window, if_pos (by omega), Nat.add_sub_cancel_left, List.getElem?_eq_getElem hj,
    List.getD_eq_getElem d 0 hj]

/-- Settles O22: the tests are those of `mirFill_eq`, and `mirrorGet_merge_window` reads the merged mirror. -/
theorem mirFillMergesWindow : Obligations.MirFillMergesWindow := by
  intro start d s
  refine ⟨⟨start :: seqBytes d, rfl⟩, fun hbad => ?badLength, fun hpos hmax hover => ?overflow,
    fun hpos hmax hfits => ⟨_, ?merged, fun j hj => mirrorGet_merge_window_at s.mirror start.toNat hj,
      fun a hout => ?outside⟩⟩
  case badLength => rw [exec_mirFill, mirFill_eq, if_pos hbad, State.merged_refused]
  case overflow => rw [exec_mirFill, mirFill_eq, if_neg (by omega), if_pos hover, State.merged_refused]
  case merged => rw [exec_mirFill, mirFill_eq, if_neg (by omega), if_neg (by omega), State.merged_ok]
  case outside => rw [mirrorGet_merge_window, if_neg (by omega)]

/-! ## `MIR_WR` (R144) -/

theorem mirWr_of_span (m : List Host.Cell) {w : ByteMap} {lo n : Nat} (h : SpanOf w lo n) :
    mirWr m w = .ok (mirrorMerge m (mapCells w)) := by
  rw [mirWr, spanCheck_of_span h, Res.bind_ok]

theorem mirWr_of_not_span (m : List Host.Cell) {w : ByteMap} (h : ¬ ∃ lo n, SpanOf w lo n) :
    mirWr m w = .error .invalidWriteSpan := by
  rw [mirWr, spanCheck_of_not_span h, Res.bind_error]

/-- Distinct bytes are distinct addresses of the mirror. -/
theorem mapCells_keys_nodup {w : ByteMap} (hw : KeysDistinct w) : ((mapCells w).map Prod.fst).Nodup := by
  have hkeys : (mapCells w).map Prod.fst = (w.map Prod.fst).map BitVec.toNat := by
    simp [mapCells, Function.comp_def]
  rw [hkeys]
  exact hw.map fun _ _ => BitVec.eq_of_toNat_eq

theorem mirrorGet_merge_map_of_mem (m : List Host.Cell) {w : ByteMap} {a v : Byte} (hw : KeysDistinct w)
    (h : (a, v) ∈ w) : mirrorGet (mirrorMerge m (mapCells w)) a.toNat = some v :=
  mirrorGet_merge_of_mem _ _ _ _ (mapCells_keys_nodup hw) (List.mem_map.mpr ⟨(a, v), h, rfl⟩)

theorem mirrorGet_merge_map_of_not_key (m : List Host.Cell) {w : ByteMap} {a : Nat} (h : ∀ e ∈ w, e.1.toNat ≠ a) :
    mirrorGet (mirrorMerge m (mapCells w)) a = mirrorGet m a :=
  mirrorGet_merge_of_not_mem _ _ _ (List.forall_mem_map.mpr h)

/-- Settles O23: the span check decides, and the merge of a map with distinct keys is read address by address. -/
theorem mirWrMergesPairs : Obligations.MirWrMergesPairs := by
  intro w s hw
  refine ⟨⟨mapBytes w, rfl⟩, fun hno => ?_, fun ⟨lo, n, hspan⟩ => ⟨_, ?_,
    fun a v hav => mirrorGet_merge_map_of_mem s.mirror hw hav, fun a ha => mirrorGet_merge_map_of_not_key s.mirror ha⟩⟩
  · rw [exec_mirWr, mirWr_of_not_span s.mirror hno, State.merged_error]
  · rw [exec_mirWr, mirWr_of_span s.mirror hspan, State.merged_ok]

/-! ## `MIR_RD` and `MIR_EMPTY` (R140, R141) -/

theorem readEntry_of_some {m : List Host.Cell} {a v : Byte} (h : mirrorGet m a.toNat = some v) :
    readEntry m a = .ok v := by
  rw [readEntry, h]

theorem readEntry_of_none {m : List Host.Cell} {a : Byte} (h : mirrorGet m a.toNat = none) :
    readEntry m a = .miss (.entry a) := by
  rw [readEntry, h]

/-- R141: the 256 addresses of the test are the 256 bytes. -/
theorem allInvalid_iff (s : State) : allInvalid s = true ↔ ∀ a : Byte, mirrorGet s.mirror a.toNat = none := by
  simp only [allInvalid, List.all_eq_true, List.mem_range, Option.isNone_iff_eq_none, Config.mirrorDepth]
  constructor
  · exact fun h a => h a.toNat a.isLt
  · intro h a ha
    have hbyte := h (BitVec.ofNat 8 a)
    rwa [BitVec.toNat_ofNat, Nat.mod_eq_of_lt ha] at hbyte

/-- Settles O21: a read is the entry or a miss (`readEntry`), and the test for emptiness is `allInvalid_iff`. -/
theorem mirrorReads : Obligations.MirrorReads := by
  intro s
  refine ⟨fun a => ⟨[a], rfl⟩, rfl, fun a v hval => ?valid, fun a hinv => ?invalid, fun hall => ?empty,
    fun ⟨a, v, hval⟩ => ?nonempty⟩
  case valid => rw [exec_mirRd, readEntry_of_some hval, Res.map_ok]
  case invalid => rw [exec_mirRd, readEntry_of_none hinv, Res.map_miss]
  case empty => rw [exec_mirEmpty, (allInvalid_iff s).mpr hall]
  case nonempty =>
    have hsome : ¬ allInvalid s = true := fun hall => by
      have hnone := (allInvalid_iff s).mp hall a
      rw [hval] at hnone
      cases hnone
    rw [exec_mirEmpty, Bool.eq_false_of_not_eq_true hsome]

/-! ## `MIR_CLR` and the profile cache (R145, R150 to R152) -/

@[simp] theorem mirrorGet_nil (a : Nat) : mirrorGet [] a = none := rfl

theorem profRd_of_some {s : State} {p : Byte} (h : s.prof = some p) : profRd s = .ok p := by
  rw [profRd, h]

theorem profRd_of_none {s : State} (h : s.prof = none) : profRd s = .miss .prof := by
  rw [profRd, h]

/-- Settles O25: `MIR_CLR` leaves the empty mirror, and `PROF_RD` answers by what the cache holds. -/
theorem clearAndProfileCache : Obligations.ClearAndProfileCache := by
  intro s
  refine ⟨rfl, rfl, fun p => ⟨[p], rfl⟩, rfl, ⟨[], ?cleared, mirrorGet_nil⟩, fun p hp => ?cached, fun hnone => ?miss,
    fun p => exec_profWr p s, exec_profClr s⟩
  case cleared => rw [exec_mirClr, State.merged_ok]
  case cached => rw [exec_profRd, profRd_of_some hp, Res.map_ok]
  case miss => rw [exec_profRd, profRd_of_none hnone, Res.map_miss]

end Sys2Proof.Machine
end

section
/-! The encoding (30_encoding): one equation of the decoder per command, the frames as command, parameters and checksum
byte, the round trips between decoder and encoder, and the selects of the operations. -/

namespace Sys2Proof.Machine

/-! ## The decoder of frames, one equation per command (R57) -/

section
variable (cap : Byte) (p : Bytes) (k : Byte)

theorem decodeForm_status : decodeForm cap 0x03 p k
    = .ok (if p = zeroParams ∧ k = 0x4a then .statusReq else .statusRsp p k) := (apply_ite Except.ok _ _ _).symm

theorem decodeForm_power : decodeForm cap 0x04 p k
    = .ok (if p = zeroParams ∧ k = 0x49 then .powerReq else .powerRsp p k) := (apply_ite Except.ok _ _ _).symm

theorem decodeForm_memSet : decodeForm cap 0x07 p k
    = .ok (if isMemSetReq p then .memSetReq (startOf p) (lengthOf p) (paramData p) k else .memSetRsp p k) :=
  (apply_ite Except.ok _ _ _).symm

theorem decodeForm_memGet : decodeForm cap 0x08 p k
    = .ok (if isMemGetReq p then .memGetReq (startOf p) (lengthOf p) k else .memGetRsp p k) :=
  (apply_ite Except.ok _ _ _).symm

theorem decodeForm_restore : decodeForm cap 0x09 p k
    = if p = zeroParams ∧ k = 0x44 then .ok .restore else .error .noForm := rfl

theorem decodeForm_deviceEvent : decodeForm cap 0x0a p k = .ok (.deviceEvent p k) := rfl

theorem decodeForm_profileGet : decodeForm cap 0x0e p k
    = if p = zeroParams ∧ k = 0x3f then .ok .activeProfileGetReq
      else if p = profileParams cap (profileOf p) then .ok (.activeProfileGetRsp (profileOf p) k)
      else .error .noForm := rfl

theorem decodeForm_profileSet : decodeForm cap 0x0f p k
    = if p = profileParams 0x01 (profileOf p) then .ok (.activeProfileSet (profileOf p) k) else .error .noForm := rfl

theorem decodeForm_unknown {c : Byte} (hc : c ∉ ([0x03, 0x04, 0x07, 0x08, 0x09, 0x0a, 0x0e, 0x0f] : Bytes)) :
    decodeForm cap c p k = .error .unknownCommand := by
  simp only [List.mem_cons, List.not_mem_nil, or_false, not_or] at hc
  simp only [decodeForm, hc, cmdStatus, cmdPower, cmdMemSet, cmdMemGet, cmdRestore, cmdDeviceEvent, cmdProfileGet,
    cmdProfileSet, if_false]

end

/-! ## The parts of a frame -/

/-- A frame has one command, one string of parameters and one checksum byte. -/
theorem frameBytes_inj {c c' : Byte} {p p' : Bytes} {k k' : Byte} (hp : p.length = p'.length) :
    frameBytes c p k = frameBytes c' p' k' ↔ c = c' ∧ p = p' ∧ k = k' := by
  simp only [frameBytes, List.cons.injEq, true_and, and_congr_right_iff]
  refine fun _ => ⟨fun h => ?_, fun ⟨hpp, hk⟩ => by rw [hpp, hk]⟩
  obtain ⟨hpp, hk⟩ := List.append_inj h hp
  exact ⟨hpp, List.singleton_inj.mp hk⟩

theorem data_frameBytes (c : Byte) {p : Bytes} (k : Byte) (hp : p.length = 14) :
    ((frameBytes c p k).drop 6).take 10 = p.drop 4 := by
  have hdrop : (p ++ [k]).drop 4 = p.drop 4 ++ [k] := List.drop_append_of_le_length (by omega)
  change ((p ++ [k]).drop 4).take 10 = _
  rw [hdrop, List.take_left' (by simp [hp])]

theorem params_frameBytes (c : Byte) {p : Bytes} (k : Byte) (hp : p.length = 14) :
    ((frameBytes c p k).drop 2).take 14 = p := List.take_left' hp

theorem last_frameBytes (c : Byte) {p : Bytes} (k : Byte) (hp : p.length = 14) : (frameBytes c p k).getD 16 0 = k := by
  simp [frameBytes, hp]

/-- Form 5 of R57: `P[0]` and `P[1]` are zero, nothing else is asked. -/
theorem isMemSetReq_iff {p : Bytes} (hp : p.length = 14) :
    isMemSetReq p = true ↔ p.getD 0 0 = 0 ∧ p.getD 1 0 = 0 := by
  obtain _ | ⟨p0, _ | ⟨p1, _ | ⟨p2, _ | ⟨p3, d⟩⟩⟩⟩ := p <;> simp at hp
  simp [isMemSetReq, memSetParams, startOf, lengthOf, paramData]

/-- Form 7 of R57: everything is zero but start and length. -/
theorem isMemGetReq_iff {p : Bytes} (hp : p.length = 14) :
    isMemGetReq p = true ↔ p.getD 0 0 = 0 ∧ p.getD 1 0 = 0 ∧ p.drop 4 = List.replicate 10 0 := by
  obtain _ | ⟨p0, _ | ⟨p1, _ | ⟨p2, _ | ⟨p3, d⟩⟩⟩⟩ := p <;> simp at hp
  simp [isMemGetReq, memGetParams, startOf, lengthOf]

theorem profileOf_profileParams (a v : Byte) : profileOf (profileParams a v) = v := rfl

theorem memSetParams_of_isMemSetReq {p : Bytes} (h : isMemSetReq p = true) :
    memSetParams (startOf p) (lengthOf p) (paramData p) = p := (beq_iff_eq.mp h).symm

theorem memGetParams_of_isMemGetReq {p : Bytes} (h : isMemGetReq p = true) :
    memGetParams (startOf p) (lengthOf p) = p := (beq_iff_eq.mp h).symm

theorem responseFits_iff {p : Bytes} {b : Bool} : responseFits p b = true ↔ p.length = 14 ∧ ¬ b = true := by
  simp [responseFits, Config.nParam]

/-! ## Decode of encode -/

/-- The frames: each is taken apart by `decodeFrame_frameBytes`, and its content is that of its own form only. The
ACTIVE_PROFILE_GET response is not the bare request, as `CAP_P3` is not zero. -/
theorem decode_encode_frame (t : Config.WfTables) (i : Instr) (hi : opSelect i = none) (hwf : wellFormed i = true) :
    decode t.val.capP3 (encode t.val.capP3 i) = .ok i := by
  cases i with
  | statusReq => rfl
  | powerReq => rfl
  | restore => rfl
  | activeProfileGetReq => rfl
  | statusRsp p k =>
    obtain ⟨hp, hno⟩ := responseFits_iff.mp hwf
    exact (decodeFrame_frameBytes _ _ p k hp).trans ((decodeForm_status _ p k).trans (by rw [if_neg (by simpa using hno)]))
  | powerRsp p k =>
    obtain ⟨hp, hno⟩ := responseFits_iff.mp hwf
    exact (decodeFrame_frameBytes _ _ p k hp).trans ((decodeForm_power _ p k).trans (by rw [if_neg (by simpa using hno)]))
  | memSetReq a n d k =>
    have hd : d.length = 10 := beq_iff_eq.mp hwf
    refine (decodeFrame_frameBytes _ _ _ k (length_memSetParams a n d hd)).trans ((decodeForm_memSet _ _ k).trans ?_)
    rw [if_pos (isMemSetReq_memSetParams a n d)]
    rfl
  | memSetRsp p k =>
    obtain ⟨hp, hno⟩ := responseFits_iff.mp hwf
    exact (decodeFrame_frameBytes _ _ p k hp).trans ((decodeForm_memSet _ p k).trans (by rw [if_neg hno]))
  | memGetReq a n k =>
    refine (decodeFrame_frameBytes _ _ _ k (length_memGetParams a n)).trans ((decodeForm_memGet _ _ k).trans ?_)
    rw [if_pos (isMemGetReq_memGetParams a n)]
    rfl
  | memGetRsp p k =>
    obtain ⟨hp, hno⟩ := responseFits_iff.mp hwf
    exact (decodeFrame_frameBytes _ _ p k hp).trans ((decodeForm_memGet _ p k).trans (by rw [if_neg hno]))
  | deviceEvent p k =>
    obtain ⟨hp, _⟩ := responseFits_iff.mp hwf
    exact decodeFrame_frameBytes _ _ p k hp
  | activeProfileGetRsp v k =>
    refine (decodeFrame_frameBytes _ _ _ k rfl).trans ((decodeForm_profileGet _ _ k).trans ?_)
    have hcap : profileParams t.val.capP3 v ≠ zeroParams := fun h => capP3_ne_zero t (congrArg (·.getD 3 0) h)
    rw [if_neg (fun h => hcap h.1), profileOf_profileParams, if_pos rfl]
  | activeProfileSet v k =>
    refine (decodeFrame_frameBytes _ _ _ k rfl).trans ((decodeForm_profileSet _ _ k).trans ?_)
    rw [profileOf_profileParams, if_pos rfl]
  | _ => cases hi

theorem op2_of_take {α β : Type} {takeA : Bytes → Except DecodeError (α × Bytes)}
    {takeB : Bytes → Except DecodeError (β × Bytes)} {a : α} {b : β} {bs r : Bytes} (f : α → β → Instr)
    (ha : takeA bs = .ok (a, r)) (hb : takeB r = .ok (b, [])) : op2 takeA takeB f bs = .ok (f a b) := by
  simp [op2, ha, hb, bind, Except.bind, ended_nil]

theorem op3_of_take {α β γ : Type} {takeA : Bytes → Except DecodeError (α × Bytes)}
    {takeB : Bytes → Except DecodeError (β × Bytes)} {takeC : Bytes → Except DecodeError (γ × Bytes)} {a : α} {b : β}
    {c : γ} {bs r r' : Bytes} (f : α → β → γ → Instr) (ha : takeA bs = .ok (a, r)) (hb : takeB r = .ok (b, r'))
    (hc : takeC r' = .ok (c, [])) : op3 takeA takeB takeC f bs = .ok (f a b c) := by
  simp [op3, ha, hb, hc, bind, Except.bind, ended_nil]

section
variable {α : Type} {take : Bytes → Except DecodeError (α × Bytes)} {bytes : α → Bytes}

/-- An operand that a reader gives back before any rest is given back at the end of the word too. -/
theorem take_of_append {a : α} (h : ∀ r, take (bytes a ++ r) = .ok (a, r)) : take (bytes a) = .ok (a, []) := by
  simpa using h []

end

/-- The operations: each operand is read back by the reader of its kind. -/
theorem decode_encode_op (cap : Byte) (i : Instr) {op : Byte} (hi : opSelect i = some op) (hwf : wellFormed i = true) :
    decode cap (encode cap i) = .ok i := by
  have hseq (s : Bytes) : takeSeq (seqBytes s) = .ok (s, []) := take_of_append (takeSeq_seqBytes s)
  have hnat (n : Nat) : takeNat (natBytes n) = .ok (n, []) := take_of_append (takeNat_natBytes n)
  have hmap (w : ByteMap) (hw : distinctKeys w = true) : takeMap (mapBytes w) = .ok (w, []) :=
    take_of_append (takeMap_mapBytes w hw)
  cases i with
  | cksum s => exact op1_of_take _ (hseq s)
  | build c A => exact op2_of_take _ (takeByte_cons c _) (hmap A hwf)
  | serialize v => exact op1_of_take _ (take_of_append (takePayload_payloadBytes v))
  | memgetBuild a n => exact op2_of_take _ (takeByte_cons a _) (hnat n)
  | memsetBuild w => exact op1_of_take _ (hmap w hwf)
  | rxcheck s => exact op1_of_take _ (hseq s)
  | parse s => exact op1_of_take _ (hseq s)
  | statusDec s => exact op1_of_take _ (hseq s)
  | powerDec s => exact op1_of_take _ (hseq s)
  | memgetDec s a n => exact op3_of_take _ (takeSeq_seqBytes s _) (takeByte_cons a _) (hnat n)
  | memsetAck s => exact op1_of_take _ (hseq s)
  | dpiEnc d => exact op1_of_take _ (take_of_append (takeWord32_word32Bytes d))
  | fieldPair o => exact op1_of_take _ (take_of_append (takePairOperand_bytes o))
  | spanCheck w => exact op1_of_take _ (hmap w hwf)
  | mirFill a d => exact op2_of_take _ (takeByte_cons a _) (hseq d)
  | mirWr w => exact op1_of_take _ (hmap w hwf)
  | fieldRd o => exact op1_of_take _ (take_of_append (takeFieldOperand_bytes o))
  | statusBuild | mirEmpty | mirClr | profRd | profClr => rfl
  | dpiDec | mapLookup | modeLookup | btnLookup | mirRd | profWr => rfl
  | reserved1c | reserved1d | reserved1e | reserved1f => rfl
  | _ => cases hi

/-- Settles O29: a frame form has no select, an operation has one. -/
theorem decodeOfEncode : Obligations.DecodeOfEncode := by
  intro t i hwf
  cases hi : opSelect i with
  | none => exact decode_encode_frame t i hi hwf
  | some op => exact decode_encode_op _ i hi hwf

/-- Settles O28: both sides are words written out. -/
theorem decodesWrittenWords : Obligations.DecodesWrittenWords :=
  ⟨rfl, rfl, rfl, rfl, rfl, rfl, rfl⟩

/-! ## Encode of decode -/

/-- What a form is read from is what it encodes to, and its command is one of the eight. -/
theorem decodeForm_eq_ok {cap c : Byte} {p : Bytes} {k : Byte} {i : Instr} (hp : p.length = 14)
    (h : decodeForm cap c p k = .ok i) :
    encode cap i = .wire (frameBytes c p k) ∧ wellFormed i = true
      ∧ c ∈ ([0x03, 0x04, 0x07, 0x08, 0x09, 0x0a, 0x0e, 0x0f] : Bytes) := by
  by_cases hc : c ∈ ([0x03, 0x04, 0x07, 0x08, 0x09, 0x0a, 0x0e, 0x0f] : Bytes)
  case neg =>
    rw [decodeForm_unknown cap p k hc] at h
    cases h
  refine and_assoc.mp ⟨?_, hc⟩
  simp only [List.mem_cons, List.not_mem_nil, or_false] at hc
  rcases hc with rfl | rfl | rfl | rfl | rfl | rfl | rfl | rfl
  · rw [decodeForm_status] at h
    split_ifs at h with hreq <;> cases h
    · rw [hreq.1, hreq.2]
      exact ⟨rfl, rfl⟩
    · exact ⟨rfl, responseFits_iff.mpr ⟨hp, by simpa using hreq⟩⟩
  · rw [decodeForm_power] at h
    split_ifs at h with hreq <;> cases h
    · rw [hreq.1, hreq.2]
      exact ⟨rfl, rfl⟩
    · exact ⟨rfl, responseFits_iff.mpr ⟨hp, by simpa using hreq⟩⟩
  · rw [decodeForm_memSet] at h
    split_ifs at h with hreq <;> cases h
    · exact ⟨by rw [encode, memSetParams_of_isMemSetReq hreq]; rfl, by simp [wellFormed, paramData, hp, Config.maxXfer]⟩
    · exact ⟨rfl, responseFits_iff.mpr ⟨hp, hreq⟩⟩
  · rw [decodeForm_memGet] at h
    split_ifs at h with hreq <;> cases h
    · exact ⟨by rw [encode, memGetParams_of_isMemGetReq hreq]; rfl, rfl⟩
    · exact ⟨rfl, responseFits_iff.mpr ⟨hp, hreq⟩⟩
  · rw [decodeForm_restore] at h
    split_ifs at h with hreq
    cases h
    rw [hreq.1, hreq.2]
    exact ⟨rfl, rfl⟩
  · cases h
    exact ⟨rfl, responseFits_iff.mpr ⟨hp, by simp⟩⟩
  · rw [decodeForm_profileGet] at h
    split_ifs at h with hreq hrsp <;> cases h
    · rw [hreq.1, hreq.2]
      exact ⟨rfl, rfl⟩
    · exact ⟨by rw [encode, ← hrsp]; rfl, rfl⟩
  · rw [decodeForm_profileSet] at h
    split_ifs at h with hset
    cases h
    exact ⟨by rw [encode, ← hset]; rfl, rfl⟩

/-- What has a form is a 17-byte string with the header (R51, R52), and its form is that of its parts. -/
theorem decodeFrame_eq_ok {cap : Byte} {F : Bytes} {i : Instr} (h : decodeFrame cap F = .ok i) :
    ∃ c p k, F = frameBytes c p k ∧ p.length = 14 ∧ decodeForm cap c p k = .ok i := by
  unfold decodeFrame at h
  split_ifs at h with hlen h0
  obtain ⟨hF, hp⟩ := frameBytes_of_frame F (not_not.mp hlen) (not_not.mp h0)
  exact ⟨_, _, _, hF, hp, h⟩

/-- Settles O30: `decodeForm_eq_ok` on the parts of the frame. -/
theorem decodedFrameKeepsEveryByte : Obligations.DecodedFrameKeepsEveryByte := by
  intro cap F i h
  obtain ⟨c, p, k, rfl, hp, hform⟩ := decodeFrame_eq_ok h
  obtain ⟨henc, hwf, hc⟩ := decodeForm_eq_ok hp hform
  exact ⟨henc, hwf, by rw [length_frameBytes, hp], rfl, hc⟩

/-! ## The rows of the table by mask and match -/

/-- Settles O31: with the parts of the frame named, each clause is the equation of its command. -/
theorem framesDecodeByMask : Obligations.FramesDecodeByMask := by
  intro cap F hlen h0
  obtain ⟨hF, hp⟩ := frameBytes_of_frame F hlen h0
  generalize byteAt F 1 = c, paramsOf F = p, byteAt F 16 = k at hF hp
  subst hF
  rw [decodeFrame_frameBytes cap c p k hp, params_frameBytes c k hp, data_frameBytes c k hp, last_frameBytes c k hp]
  have hbyte (i : Nat) (hi : i < 14) : (frameBytes c p k).getD (i + 2) 0 = p.getD i 0 := getD_frameBytes c k (hp ▸ hi)
  have h2 : (frameBytes c p k).getD 2 0 = p.getD 0 0 := hbyte 0 (by decide)
  have h3 : (frameBytes c p k).getD 3 0 = p.getD 1 0 := hbyte 1 (by decide)
  have h4 : (frameBytes c p k).getD 4 0 = startOf p := hbyte 2 (by decide)
  have h5 : (frameBytes c p k).getD 5 0 = lengthOf p := hbyte 3 (by decide)
  have h6 : (frameBytes c p k).getD 6 0 = profileOf p := hbyte 4 (by decide)
  have hframe (p' : Bytes) (k' : Byte) (hp' : p'.length = 14) :
      p = p' ∧ k = k' ↔ frameBytes c p k = frameBytes c p' k' := by
    rw [frameBytes_inj (hp.trans hp'.symm), and_iff_right rfl]
  have hprofile (a : Byte) : p = profileParams a (profileOf p)
      ↔ frameBytes c p k = frameBytes c (profileParams a (profileOf p)) k := by
    rw [← hframe _ k rfl, and_iff_left rfl]
  rw [h2, h3, h4, h5, h6]
  refine ⟨fun hc => ?status, fun hc => ?power, fun hc => ?memSet, fun hc => ?memGet, fun hc => ?restore,
    fun hc => ?deviceEvent, fun hc => ?profileGet, fun hc => ?profileSet, fun hc => decodeForm_unknown cap p k hc⟩
  all_goals obtain rfl : c = _ := hc
  case status =>
    simp only [decodeForm_status, hframe zeroParams 0x4a rfl]
    rfl
  case power =>
    simp only [decodeForm_power, hframe zeroParams 0x49 rfl]
    rfl
  case memSet =>
    simp only [decodeForm_memSet, isMemSetReq_iff hp]
    rfl
  case memGet => simp only [decodeForm_memGet, isMemGetReq_iff hp]
  case restore =>
    simp only [decodeForm_restore, hframe zeroParams 0x44 rfl]
    rfl
  case deviceEvent => exact decodeForm_deviceEvent cap p k
  case profileGet =>
    simp only [decodeForm_profileGet, hframe zeroParams 0x3f rfl, hprofile cap]
    rfl
  case profileSet =>
    simp only [decodeForm_profileSet, hprofile 0x01]
    rfl

/-! ## The selects of the operations (R70, R71) -/

theorem eq_of_ended {i j : Instr} {r : Bytes} (h : ended i r = .ok j) : j = i := by
  unfold ended at h
  split_ifs at h
  cases h
  rfl

theorem eq_of_op1 {α : Type} {take : Bytes → Except DecodeError (α × Bytes)} {f : α → Instr} {bs : Bytes} {i : Instr}
    (h : op1 take f bs = .ok i) : ∃ a, i = f a := by
  unfold op1 at h
  cases ha : take bs with
  | error e => simp [ha, bind, Except.bind] at h
  | ok x => exact ⟨x.1, eq_of_ended (by simpa [ha, bind, Except.bind] using h)⟩

theorem eq_of_op2 {α β : Type} {takeA : Bytes → Except DecodeError (α × Bytes)}
    {takeB : Bytes → Except DecodeError (β × Bytes)} {f : α → β → Instr} {bs : Bytes} {i : Instr}
    (h : op2 takeA takeB f bs = .ok i) : ∃ a b, i = f a b := by
  unfold op2 at h
  cases ha : takeA bs with
  | error e => simp [ha, bind, Except.bind] at h
  | ok x =>
    have hrest : op1 takeB (f x.1) x.2 = .ok i := by simpa [op1, op2, ha, bind, Except.bind] using h
    exact ⟨x.1, eq_of_op1 hrest⟩

theorem eq_of_op3 {α β γ : Type} {takeA : Bytes → Except DecodeError (α × Bytes)}
    {takeB : Bytes → Except DecodeError (β × Bytes)} {takeC : Bytes → Except DecodeError (γ × Bytes)}
    {f : α → β → γ → Instr} {bs : Bytes} {i : Instr} (h : op3 takeA takeB takeC f bs = .ok i) : ∃ a b c, i = f a b c := by
  unfold op3 at h
  cases ha : takeA bs with
  | error e => simp [ha, bind, Except.bind] at h
  | ok x =>
    have hrest : op2 takeB takeC (f x.1) x.2 = .ok i := by simpa [op2, op3, ha, bind, Except.bind] using h
    exact ⟨x.1, eq_of_op2 hrest⟩

theorem opSelect_of_decodeOperands {sel : Nat} {bs : Bytes} {i : Instr} (hsel : sel < 32)
    (h : decodeOperands sel bs = .ok i) : ∃ op : Byte, opSelect i = some op ∧ op.toNat = sel := by
  match sel, h with
  | 0x03, h | 0x14, h | 0x17, h | 0x19, h | 0x1b, h =>
    cases eq_of_ended h
    exact ⟨_, rfl, rfl⟩
  | 0x00, h | 0x02, h | 0x05, h | 0x06, h | 0x07, h | 0x08, h | 0x09, h | 0x0b, h | 0x0c, h | 0x0e, h | 0x11, h
  | 0x12, h | 0x13, h | 0x16, h | 0x18, h | 0x1a, h =>
    obtain ⟨_, rfl⟩ := eq_of_op1 h
    exact ⟨_, rfl, rfl⟩
  | 0x01, h | 0x04, h | 0x0f, h | 0x10, h | 0x15, h =>
    obtain ⟨_, _, rfl⟩ := eq_of_op2 h
    exact ⟨_, rfl, rfl⟩
  | 0x0a, h | 0x0d, h =>
    obtain ⟨_, _, _, rfl⟩ := eq_of_op3 h
    exact ⟨_, rfl, rfl⟩
  | 0x1c, h | 0x1d, h | 0x1e, h | 0x1f, h =>
    cases h
    exact ⟨_, rfl, rfl⟩
  | n + 32, _ => omega

theorem encode_of_opSelect {i : Instr} {op : Byte} (cap : Byte) (hi : opSelect i = some op) :
    op.toNat < 32 ∧ ∃ r, encode cap i = .op (op :: r) := by
  cases i <;> cases hi <;> exact ⟨by decide, _, rfl⟩

theorem encode_of_no_opSelect {i : Instr} (cap : Byte) (hi : opSelect i = none) : ∃ F, encode cap i = .wire F := by
  cases i <;> cases hi <;> exact ⟨_, rfl⟩

/-- Settles O26: the encoder and the decoder agree on the select byte; what a reserved select does stands in its rule. -/
theorem operationSelects : Obligations.OperationSelects := fun cap =>
  ⟨fun _ _ => encode_of_opSelect cap, fun _ => encode_of_no_opSelect cap,
    fun b _ _ h => opSelect_of_decodeOperands (Nat.mod_lt b.toNat (by decide)) h,
    fun _ => ⟨fun _ => ⟨rfl, rfl, rfl, rfl⟩, rfl, rfl, rfl, rfl⟩⟩

end Sys2Proof.Machine
end

section
/-! The checksum as a guard (40_checksum section 3): what one changed byte, a reordering and two changes that cancel do to
the sum of a frame; and `MEMGET_DEC` (R110). -/

namespace Sys2Proof.Machine

/-! ## Changed and reordered frames -/

theorem sum_set_add (F : Bytes) (j : Nat) (v : Byte) (hj : j < F.length) :
    ((F.set j v).map BitVec.toNat).sum + (F.getD j 0).toNat = (F.map BitVec.toNat).sum + v.toNat := by
  induction F generalizing j with
  | nil => cases hj
  | cons b F ih =>
    cases j with
    | zero =>
      simp only [List.set_cons_zero, List.map_cons, List.sum_cons, List.getD_cons_zero]
      omega
    | succ j =>
      have htail := ih j (Nat.lt_of_succ_lt_succ hj)
      simp only [List.set_cons_succ, List.map_cons, List.sum_cons, List.getD_cons_succ]
      omega

theorem getD_set_ne (F : Bytes) {i j : Nat} (v : Byte) (h : j ≠ i) : (F.set j v).getD i 0 = F.getD i 0 := by
  rw [List.getD_eq_getElem?_getD, List.getElem?_set_ne h, ← List.getD_eq_getElem?_getD]

/-- A byte changed to another value moves the sum of the frame off 0x55 modulo 256. -/
theorem rxcheck_set {F : Bytes} {j : Nat} {v : Byte} (h : ValidFrame F) (hj : j < 17) (hv : F.getD j 0 ≠ v) :
    rxcheck (F.set j v) = .error .checksumMismatch := by
  obtain ⟨hlen, _, hsum⟩ := h
  have hset := sum_set_add F j v (by omega)
  have hne : (F.getD j 0).toNat ≠ v.toNat := fun heq => hv (BitVec.eq_of_toNat_eq heq)
  have := (F.getD j 0).isLt
  have := v.isLt
  have hbad : ((F.set j v).map BitVec.toNat).sum % 256 ≠ 0x55 := by omega
  rw [rxcheck_eq, validationError, if_neg (by simpa using hlen), if_pos hbad]

theorem validFrame_of_perm {F G : Bytes} (h : ValidFrame F) (hG : G.Perm F) (h0 : G.getD 0 0 = 0x08) : ValidFrame G :=
  ⟨hG.length_eq.trans h.1, h0, by rw [(hG.map BitVec.toNat).sum_eq]; exact h.2.2⟩

/-- What one byte gains the other loses, modulo 256. -/
theorem validFrame_of_cancelling {F : Bytes} {j k : Nat} (d : Byte) (h : ValidFrame F) (hj : 0 < j) (hjk : j < k)
    (hk : k < 17) : ValidFrame ((F.set j (F.getD j 0 + d)).set k (F.getD k 0 - d)) := by
  obtain ⟨hlen, h0, hsum⟩ := h
  have hfirst := sum_set_add F j (F.getD j 0 + d) (by omega)
  have hsecond := sum_set_add (F.set j (F.getD j 0 + d)) k (F.getD k 0 - d) (by simp; omega)
  rw [getD_set_ne F _ (by omega)] at hsecond
  refine ⟨by simpa using hlen, ?_, ?_⟩
  · rwa [getD_set_ne _ _ (by omega), getD_set_ne _ _ (by omega)]
  · simp only [BitVec.toNat_add, BitVec.toNat_sub] at hfirst hsecond
    have := (F.getD j 0).isLt
    have := (F.getD k 0).isLt
    have := d.isLt
    omega

/-- Settles O2: `RXCHECK` sees a frame by its length, its header and its sum. -/
theorem checksumDetectsOneChange : Obligations.ChecksumDetectsOneChange := by
  intro F s hF
  simp only [exec_rxcheck]
  refine ⟨fun j v hj hv => ?_, fun G hG h0 => ?_, fun j k d hj hjk hk => ?_⟩
  · rw [rxcheck_set hF hj hv, Res.map_error]
  · rw [rxcheck_of_valid (validFrame_of_perm hF hG h0), Res.map_ok]
  · rw [rxcheck_of_valid (validFrame_of_cancelling d hF hj hjk hk), Res.map_ok]

/-! ## `MEMGET_DEC` (R110) -/

theorem exec_memgetDec (b : Bytes) (start : Byte) (length : Nat) (s : State) : exec (.memgetDec b start length) s
    = .next { s with results := s.results ++ [(memgetDec b start length).map .bytes] } := rfl

theorem memgetDec_of_invalid {b : Bytes} {e : Err} (h : validationError b = some e) (start : Byte) (length : Nat) :
    memgetDec b start length = .error e := by
  rw [memgetDec, rxcheck_eq, h, Res.bind_error]

/-- R110 on a valid frame, in the order of its tests. -/
theorem memgetDec_of_valid {b : Bytes} (h : ValidFrame b) (start : Byte) (length : Nat) : memgetDec b start length =
    if length < 1 ∨ 10 < length then .refused .badLength
    else if 256 < start.toNat + length then .refused .addressOverflow
    else if b.getD 1 0 ≠ 0x08 then .refused .wrongCommand
    else if b.getD 4 0 ≠ start ∨ (b.getD 5 0).toNat ≠ length then .error .protocolMismatch
    else .ok (dataOf b length) := by
  rw [memgetDec, rxcheck_of_valid h, Res.bind_ok]
  rcases windowTest_cases start length with ⟨hbad, htest⟩ | ⟨hlo, hhi, hover, htest⟩ | ⟨hlo, hhi, hfits, htest⟩
  · rw [htest, Res.bind_refused, if_pos hbad]
  · rw [htest, Res.bind_refused, if_neg (by omega), if_pos hover]
  · have hlength : ¬ (length < 1 ∨ 10 < length) := by omega
    rw [htest, Res.bind_ok, if_neg hlength, if_neg hfits.not_gt]
    rfl

theorem length_dataOf {b : Bytes} {n : Nat} (hb : b.length = 17) (hn : n ≤ 10) : (dataOf b n).length = n := by
  simp [dataOf, hb]
  omega

theorem getD_dataOf (b : Bytes) {n j : Nat} (hj : j < n) : (dataOf b n).getD j 0 = b.getD (6 + j) 0 := by
  simp only [dataOf, List.getD_eq_getElem?_getD, List.getElem?_take, if_pos hj, List.getElem?_drop]

/-- Settles O14: the tests are those of `memgetDec_of_valid`, the data bytes `dataOf`. -/
theorem memgetDecChecksEcho : Obligations.MemgetDecChecksEcho := by
  intro b start length s
  refine ⟨⟨_, rfl⟩, dataOf b length, ?_, fun hb hn => ⟨length_dataOf hb hn, fun j hj => getD_dataOf b hj⟩⟩
  rw [exec_memgetDec]
  cases hv : validationError b with
  | some e => simp only [memgetDec_of_invalid hv, Res.map_error]
  | none =>
    simp only [memgetDec_of_valid (validationError_eq_none.mp hv), apply_ite (Res.map _), Res.map_refused, Res.map_error,
      Res.map_ok]

end Sys2Proof.Machine
end

section
/-! The address map (44_address_map) and the reader of fields (45_mirror R147): what the well-formedness of the tables
(R127) gives each lookup, and that the addresses of a field are one block. -/

namespace Sys2Proof.Machine

/-! ## What well-formed tables are (R127) -/

section
variable (t : Config.WfTables)

theorem checks_of_wf : t.val.shapeOk = true ∧ t.val.w2 = true ∧ t.val.w3 = true ∧ t.val.w5 = true := by
  have hwf := t.property
  simp only [Config.Tables.wf, Bool.and_eq_true] at hwf
  tauto

theorem shape_of_wf : t.val.scalars.length = 13 ∧ t.val.modeOff.length = 8 ∧ t.val.buttons.length = 5
    ∧ (∀ b ∈ t.val.buttons, b.length = 3) ∧ t.val.setterDomain.length = 13 := by
  obtain ⟨hshape, _⟩ := checks_of_wf t
  simp only [Config.Tables.shapeOk, Bool.and_eq_true, beq_iff_eq, List.all_eq_true] at hshape
  tauto

/-- R127 W2: the two addresses of a scalar field are neighbours. -/
theorem cks_adjacent {row : Config.FieldAddr} (h : row ∈ t.val.scalars) :
    row.cks.toNat = row.addr.toNat + 1 ∨ row.addr.toNat = row.cks.toNat + 1 := by
  obtain ⟨_, hw2, _⟩ := checks_of_wf t
  simpa using List.all_eq_true.mp hw2 row h

/-- R127 W3: the DPI offsets and the LED offsets are consecutive. -/
theorem consecutive_groups :
    Config.consecutive (t.val.modeOff.take 4) = true ∧ Config.consecutive (t.val.modeOff.drop 4) = true := by
  obtain ⟨_, _, hw3, _⟩ := checks_of_wf t
  exact Bool.and_eq_true_iff.mp hw3

/-- R127 W5: every named address is at most 0xc7. -/
theorem named_le {a : Nat} (h : a ∈ t.val.named) : a ≤ 0xc7 := by
  obtain ⟨_, _, _, hw5⟩ := checks_of_wf t
  exact of_decide_eq_true (List.all_eq_true.mp hw5 a h)

theorem modeAddrNat_le {m j : Nat} (hm : m ≤ 3) (hj : j ≤ 7) : t.val.modeAddrNat m j ≤ 0xc7 := by
  refine named_le t ?_
  simp only [Config.Tables.named, List.mem_append, List.mem_flatMap, List.mem_map, List.mem_range]
  exact .inl (.inr ⟨m, by omega, j, by omega, rfl⟩)

end

theorem getElem?_of_lt {α : Type} (l : List α) {i : Nat} (d : α) (h : i < l.length) : l[i]? = some (l.getD i d) := by
  rw [List.getElem?_eq_getElem h, List.getD_eq_getElem l d h]

/-! ## Scalar fields (R125, R126, R132) -/

theorem fieldIndex_lt (f : ScalarField) : fieldIndex f < 13 := by
  cases f <;> decide

theorem fieldNamed_fieldIndex (f : ScalarField) : fieldNamed (BitVec.ofNat 8 (fieldIndex f)) = .ok f := by
  cases f <;> rfl

theorem fieldNamed_of_gt {n : Byte} (hn : 12 < n.toNat) : fieldNamed n = .refused .badName := by
  obtain ⟨k, hk⟩ : ∃ k, n.toNat = k + 13 := ⟨n.toNat - 13, by omega⟩
  simp only [fieldNamed, fieldOf, hk]

theorem scalars_getElem? (t : Config.WfTables) (f : ScalarField) :
    t.val.scalars[fieldIndex f]? = some (addrOf t.val f) := by
  obtain ⟨hlen, _⟩ := shape_of_wf t
  exact getElem?_of_lt _ _ (hlen ▸ fieldIndex_lt f)

theorem setterDomain_getElem? (t : Config.WfTables) (f : ScalarField) :
    t.val.setterDomain[fieldIndex f]? = some (t.val.setterDomain.getD (fieldIndex f) []) := by
  obtain ⟨_, _, _, _, hlen⟩ := shape_of_wf t
  exact getElem?_of_lt _ _ (hlen ▸ fieldIndex_lt f)

theorem addrOf_adjacent (t : Config.WfTables) (f : ScalarField) :
    (addrOf t.val f).cks.toNat = (addrOf t.val f).addr.toNat + 1
      ∨ (addrOf t.val f).addr.toNat = (addrOf t.val f).cks.toNat + 1 :=
  cks_adjacent t (List.mem_of_getElem? (scalars_getElem? t f))

/-! ## Mode records and buttons (R128 to R131) -/

/-- R129: the address of a mode record's slot never wraps. -/
theorem modeAddr_toNat (t : Config.WfTables) {m j : Nat} (hm : m ≤ 3) (hj : j ≤ 7) :
    (modeAddr t.val m j).toNat = t.val.modeAddrNat m j := by
  have hle := modeAddrNat_le t hm hj
  exact Nat.mod_eq_of_lt (by omega)

/-- R129 with the offset read from the table. -/
theorem modeAddr_spec (t : Config.WfTables) {m j : Nat} (hm : m ≤ 3) (hj : j ≤ 7) :
    ∃ off, t.val.modeOff[j]? = some off
      ∧ (modeAddr t.val m j).toNat = t.val.modeBase.toNat + m * t.val.modeStride + off := by
  obtain ⟨_, hlen, _⟩ := shape_of_wf t
  exact ⟨_, getElem?_of_lt _ 0 (by omega), modeAddr_toNat t hm hj⟩

theorem modeLookup_eq (t : Config.Tables) (m j : Byte) : modeLookup t m j =
    if 3 < m.toNat then .refused .badMode
    else if 7 < j.toNat then .refused .badSlot
    else .ok (modeAddr t m.toNat j.toNat) := rfl

theorem btnLookup_eq (t : Config.Tables) (u i : Byte) : btnLookup t u i =
    if 4 < u.toNat then .refused .badSlot
    else if 2 < i.toNat then .refused .badIndex
    else .ok (btnAddr t u.toNat i.toNat) := rfl

theorem btnAddr_spec (t : Config.WfTables) {u i : Nat} (hu : u ≤ 4) (hi : i ≤ 2) :
    ∃ row : Bytes, t.val.buttons[u]? = some row ∧ row[i]? = some (btnAddr t.val u i) := by
  obtain ⟨_, _, hlen, hrows, _⟩ := shape_of_wf t
  have hrow := getElem?_of_lt t.val.buttons [] (show u < t.val.buttons.length by omega)
  have hthree := hrows _ (List.mem_of_getElem? hrow)
  exact ⟨_, hrow, getElem?_of_lt _ 0 (by omega)⟩

/-! ## The lookups (R130 to R132) -/

theorem exec_mapLookup (n : Byte) (s : State) : exec (.mapLookup n) s = .next { s with results := s.results
    ++ [(fieldNamed n).map fun f => .addrPair (addrOf s.cfg.val f).addr (addrOf s.cfg.val f).cks] } := by
  rw [← Res.map_map (addrOf s.cfg.val) fun p : Config.FieldAddr => Val.addrPair p.addr p.cks]
  rfl

theorem exec_modeLookup (m j : Byte) (s : State) : exec (.modeLookup m j) s
    = .next { s with results := s.results ++ [(modeLookup s.cfg.val m j).map .byte] } := rfl

theorem exec_btnLookup (u i : Byte) (s : State) : exec (.btnLookup u i) s
    = .next { s with results := s.results ++ [(btnLookup s.cfg.val u i).map .byte] } := rfl

/-- Settles O18: the tests of each lookup in their order, and a row of the table behind them. -/
theorem lookupsAnswerTables : Obligations.LookupsAnswerTables := by
  intro s
  simp only [exec_mapLookup, exec_modeLookup, exec_btnLookup, modeLookup_eq, btnLookup_eq]
  refine ⟨fun _ => ⟨_, rfl⟩, fun _ _ => ⟨_, rfl⟩, fun _ _ => ⟨_, rfl⟩, fun f => ?field, fun n hn => ?badName,
    fun m j hm => ?badMode, fun m j hm hj => ?badModeSlot, fun m j hm hj => ?modeSlot, fun u i hu => ?badButton,
    fun u i hu hi => ?badIndex, fun u i hu hi => ?button⟩
  case field => exact ⟨addrOf s.cfg.val f, scalars_getElem? s.cfg f, by rw [fieldNamed_fieldIndex, Res.map_ok]⟩
  case badName => rw [fieldNamed_of_gt hn, Res.map_refused]
  case badMode => rw [if_pos hm, Res.map_refused]
  case badModeSlot => rw [if_neg hm.not_gt, if_pos hj, Res.map_refused]
  case modeSlot =>
    obtain ⟨off, hoff, haddr⟩ := modeAddr_spec s.cfg hm hj
    refine ⟨modeAddr s.cfg.val m.toNat j.toNat, off, hoff, haddr, ?_, ?_⟩
    · rw [modeAddr_toNat s.cfg hm hj]
      exact modeAddrNat_le s.cfg hm hj
    · rw [if_neg hm.not_gt, if_neg hj.not_gt, Res.map_ok]
  case badButton => rw [if_pos hu, Res.map_refused]
  case badIndex => rw [if_neg hu.not_gt, if_pos hi, Res.map_refused]
  case button =>
    obtain ⟨row, hrow, haddr⟩ := btnAddr_spec s.cfg hu hi
    exact ⟨row, _, hrow, haddr, by rw [if_neg hu.not_gt, if_neg hi.not_gt, Res.map_ok]⟩

/-! ## The addresses of a field are one block (R133, W2, W3) -/

/-- A consecutive list is a block of numbers in some order. -/
theorem perm_range'_of_consecutive {l : List Nat} (h : Config.consecutive l = true) :
    ∃ lo, l.Perm (List.range' lo l.length) := by
  simp only [Config.consecutive, List.all_eq_true, List.mem_range, List.contains_iff_mem] at h
  refine ⟨l.foldl min (l.headD 0), ((List.subperm_of_subset List.nodup_range' fun a ha => ?_).perm_of_length_le ?_).symm⟩
  · obtain ⟨hge, hlt⟩ := List.mem_range'_1.mp ha
    rw [← Nat.add_sub_cancel' hge]
    exact h _ (by omega)
  · rw [List.length_range']

theorem spanOf_of_perm {w : ByteMap} {lo n : Nat} (h : (w.map fun e => e.1.toNat).Perm (List.range' lo n)) (h1 : 1 ≤ n)
    (h10 : n ≤ 10) : SpanOf w lo n := by
  have hlen : w.length = n := by simpa using h.length_eq
  refine ⟨hlen, h1, h10, fun e he => ?_, fun j hj => ?_⟩
  · exact List.mem_range'_1.mp (h.mem_iff.mp (List.mem_map_of_mem he))
  · exact List.mem_map.mp (h.mem_iff.mpr (List.mem_range'_1.mpr ⟨Nat.le_add_right lo j, by omega⟩))

theorem keysDistinct_of_perm {w : ByteMap} {lo n : Nat} (h : (w.map fun e => e.1.toNat).Perm (List.range' lo n)) :
    KeysDistinct w := by
  have hnodup : (w.map fun e => e.1.toNat).Nodup := h.nodup_iff.mpr List.nodup_range'
  rw [show (w.map fun e => e.1.toNat) = (w.map Prod.fst).map BitVec.toNat by simp [Function.comp_def]] at hnodup
  exact hnodup.of_map

/-- The block of a scalar field's pair (R127 W2). -/
theorem scalarPair_perm (t : Config.WfTables) (f : ScalarField) (v : Byte) :
    ∃ lo, ((scalarPair t.val f v).map fun e => e.1.toNat).Perm (List.range' lo 2) := by
  simp only [scalarPair, List.map_cons, List.map_nil]
  rcases addrOf_adjacent t f with h | h <;> rw [h]
  · exact ⟨_, .refl _⟩
  · exact ⟨_, .swap _ _ _⟩

/-- The map that `FIELD_PAIR` answers for a triple (R133). -/
def groupPairs (t : Config.Tables) (m : Byte) (g : Group) (b0 b1 b2 : Byte) : ByteMap :=
  [(modeAddr t m.toNat (groupSlot g), b0), (modeAddr t m.toNat (groupSlot g + 1), b1),
    (modeAddr t m.toNat (groupSlot g + 2), b2), (modeAddr t m.toNat (groupSlot g + 3), ck [b0, b1, b2])]

theorem triplePair_of_mode (t : Config.Tables) {m : Byte} (g : Group) (b0 b1 b2 : Byte) (hm : m.toNat ≤ 3) :
    triplePair t m g b0 b1 b2 = .ok (groupPairs t m g b0 b1 b2) := if_neg hm.not_gt

theorem triplePair_badMode (t : Config.Tables) {m : Byte} (g : Group) (b0 b1 b2 : Byte) (hm : 3 < m.toNat) :
    triplePair t m g b0 b1 b2 = .refused .badMode := if_pos hm

theorem groupSlot_add_le {g : Group} {i : Nat} (hi : i < 4) : groupSlot g + i ≤ 7 := by
  cases g <;> simp only [groupSlot] <;> omega

theorem groupAddr_spec (t : Config.WfTables) (g : Group) {m i : Nat} (hm : m ≤ 3) (hi : i < 4) :
    ∃ off, t.val.modeOff[groupSlot g + i]? = some off
      ∧ (modeAddr t.val m (groupSlot g + i)).toNat = t.val.modeBase.toNat + m * t.val.modeStride + off :=
  modeAddr_spec t hm (groupSlot_add_le hi)

theorem map_getD_range {l : List Nat} {k n : Nat} (h : k + n ≤ l.length) :
    ((List.range n).map fun i => l.getD (k + i) 0) = (l.drop k).take n := by
  refine List.ext_getElem (by simp; omega) fun i hi _ => ?_
  have hin : k + i < l.length := by
    have : i < n := by simpa using hi
    omega
  simp [List.getElem?_eq_getElem hin]

/-- The four offsets of a group are a block (R127 W3). -/
theorem groupOffsets_perm (t : Config.WfTables) (g : Group) :
    ∃ lo, ((List.range 4).map fun i => t.val.modeOff.getD (groupSlot g + i) 0).Perm (List.range' lo 4) := by
  obtain ⟨_, hlen, _⟩ := shape_of_wf t
  obtain ⟨hdpi, hled⟩ := consecutive_groups t
  cases g with
  | dpi =>
    rw [map_getD_range (by simp only [groupSlot]; omega)]
    simpa [groupSlot, hlen] using perm_range'_of_consecutive hdpi
  | led =>
    rw [map_getD_range (by simp only [groupSlot]; omega), List.take_of_length_le (by simp [groupSlot, hlen])]
    simpa [groupSlot, hlen] using perm_range'_of_consecutive hled

/-- The block of a triple's map: the offsets of its group, shifted by the mode's record (R129). -/
theorem groupPairs_perm (t : Config.WfTables) {m : Byte} (g : Group) (b0 b1 b2 : Byte) (hm : m.toNat ≤ 3) :
    ∃ lo, ((groupPairs t.val m g b0 b1 b2).map fun e => e.1.toNat).Perm (List.range' lo 4) := by
  obtain ⟨lo, hlo⟩ := groupOffsets_perm t g
  have haddr (i : Nat) (hi : i < 4) := modeAddr_toNat t (j := groupSlot g + i) hm (groupSlot_add_le hi)
  refine ⟨t.val.modeBase.toNat + m.toNat * t.val.modeStride + lo, ?_⟩
  rw [← List.map_add_range']
  refine .trans (.of_eq ?_) (hlo.map _)
  simp only [groupPairs, List.map_cons, List.map_nil, haddr 1 (by decide), haddr 2 (by decide), haddr 3 (by decide)]
  exact congrArg (· :: _) (haddr 0 (by decide))

/-! ## The checksum byte of a field -/

theorem eq_ck_one_iff (k v : Byte) : k = ck [v] ↔ k + v = 0x55 := by
  rw [ck_cons, ck_nil, eq_sub_iff_add_eq]

theorem eq_ck_three_iff (k b0 b1 b2 : Byte) : k = ck [b0, b1, b2] ↔ k + b0 + b1 + b2 = 0x55 := by
  simp only [ck_cons, ck_nil, eq_sub_iff_add_eq]

/-! ## `FIELD_PAIR` (R133) -/

theorem exec_fieldPair_scalar (n v : Byte) (s : State) : exec (.fieldPair (.scalar n v)) s = .next { s with results :=
    s.results ++ [(fieldNamed n).map fun f => .map (scalarPair s.cfg.val f v)] } := by
  rw [← Res.map_map (fun f => scalarPair s.cfg.val f v) Val.map]
  rfl

theorem exec_fieldPair_triple (m : Byte) (g : Group) (b0 b1 b2 : Byte) (s : State) :
    exec (.fieldPair (.triple m g b0 b1 b2)) s = .next { s with results :=
      s.results ++ [(triplePair s.cfg.val m g b0 b1 b2).map .map] } := rfl

/-- Settles O19: the keys of the two maps are blocks by `scalarPair_perm` and `groupPairs_perm`. -/
theorem fieldPairIsContiguous : Obligations.FieldPairIsContiguous := by
  intro s
  simp only [exec_fieldPair_scalar, exec_fieldPair_triple, exec_spanCheck]
  refine ⟨fun _ => ⟨_, rfl⟩, fun f v => ?scalar, fun n v hn => ?badName, fun m g b0 b1 b2 hm => ?badMode,
    fun m g b0 b1 b2 o hm ho => ?triple⟩
  case scalar =>
    obtain ⟨lo, hlo⟩ := scalarPair_perm s.cfg f v
    have hne : (addrOf s.cfg.val f).addr ≠ (addrOf s.cfg.val f).cks := fun h => by
      have hadj := addrOf_adjacent s.cfg f
      rw [h] at hadj
      omega
    have hspan : spanCheck (scalarPair s.cfg.val f v) = .ok (BitVec.ofNat 8 lo, 2) :=
      spanCheck_of_span (spanOf_of_perm hlo (by decide) (by decide))
    refine ⟨addrOf s.cfg.val f, ck [v], BitVec.ofNat 8 lo, scalars_getElem? s.cfg f, (eq_ck_one_iff _ v).mp rfl, hne, ?_, ?_⟩
    · rw [fieldNamed_fieldIndex, Res.map_ok, scalarPair]
    · rw [← scalarPair, hspan, Res.map_ok]
  case badName => rw [fieldNamed_of_gt hn, Res.map_refused]
  case badMode => rw [triplePair_badMode s.cfg.val g b0 b1 b2 hm, Res.map_refused]
  case triple =>
    obtain rfl : o = groupSlot g := ho.trans (by cases g <;> rfl)
    obtain ⟨lo, hlo⟩ := groupPairs_perm s.cfg g b0 b1 b2 hm
    have hspan := spanCheck_of_span (spanOf_of_perm hlo (by decide) (by decide))
    obtain ⟨o0, ho0, ha0⟩ := groupAddr_spec s.cfg g hm (i := 0) (by decide)
    obtain ⟨o1, ho1, ha1⟩ := groupAddr_spec s.cfg g hm (i := 1) (by decide)
    obtain ⟨o2, ho2, ha2⟩ := groupAddr_spec s.cfg g hm (i := 2) (by decide)
    obtain ⟨o3, ho3, ha3⟩ := groupAddr_spec s.cfg g hm (i := 3) (by decide)
    rw [Nat.add_zero] at ho0 ha0
    refine ⟨_, _, _, _, ck [b0, b1, b2], BitVec.ofNat 8 lo, o0, o1, o2, o3, ho0, ho1, ho2, ho3, ha0, ha1, ha2, ha3,
      (eq_ck_three_iff _ b0 b1 b2).mp rfl, keysDistinct_of_perm hlo, ?_, ?_⟩
    · rw [triplePair_of_mode s.cfg.val g b0 b1 b2 hm, Res.map_ok, groupPairs]
    · rw [← groupPairs, hspan, Res.map_ok]

/-! ## `FIELD_RD` (R147) -/

/-- R147, scalar: the two reads in order, then the checksum byte. -/
theorem readScalar_eq (t : Config.Tables) (m : List Host.Cell) (f : ScalarField) : readScalar t m f =
    match mirrorGet m (addrOf t f).addr.toNat, mirrorGet m (addrOf t f).cks.toNat with
    | none, _ => .miss (.entry (addrOf t f).addr)
    | some _, none => .miss (.entry (addrOf t f).cks)
    | some v, some k => if k + v = 0x55 then .ok v else .error .checksumMismatch := by
  rw [readScalar]
  cases hv : mirrorGet m (addrOf t f).addr.toNat with
  | none => rw [readEntry_of_none hv, Res.bind_miss]
  | some v =>
    rw [readEntry_of_some hv, Res.bind_ok]
    cases hk : mirrorGet m (addrOf t f).cks.toNat with
    | none => rw [readEntry_of_none hk, Res.bind_miss]
    | some k => simp only [readEntry_of_some hk, Res.bind_ok, ne_eq, eq_ck_one_iff, ite_not]

theorem readTriple_badMode (t : Config.Tables) (m : List Host.Cell) {mode : Byte} (g : Group) (h : 3 < mode.toNat) :
    readTriple t m mode g = .refused .badMode := if_pos h

/-- R147, triple: the four reads in order, then the checksum byte. -/
theorem readTriple_eq (t : Config.Tables) (m : List Host.Cell) {mode : Byte} (g : Group) (h : mode.toNat ≤ 3) :
    readTriple t m mode g =
    match mirrorGet m (modeAddr t mode.toNat (groupSlot g)).toNat,
      mirrorGet m (modeAddr t mode.toNat (groupSlot g + 1)).toNat,
      mirrorGet m (modeAddr t mode.toNat (groupSlot g + 2)).toNat,
      mirrorGet m (modeAddr t mode.toNat (groupSlot g + 3)).toNat with
    | none, _, _, _ => .miss (.entry (modeAddr t mode.toNat (groupSlot g)))
    | some _, none, _, _ => .miss (.entry (modeAddr t mode.toNat (groupSlot g + 1)))
    | some _, some _, none, _ => .miss (.entry (modeAddr t mode.toNat (groupSlot g + 2)))
    | some _, some _, some _, none => .miss (.entry (modeAddr t mode.toNat (groupSlot g + 3)))
    | some b0, some b1, some b2, some k =>
      if k + b0 + b1 + b2 = 0x55 then .ok [b0, b1, b2] else .error .checksumMismatch := by
  rw [readTriple, if_neg h.not_gt]
  cases h0 : mirrorGet m (modeAddr t mode.toNat (groupSlot g)).toNat with
  | none => rw [readEntry_of_none h0, Res.bind_miss]
  | some b0 =>
    rw [readEntry_of_some h0, Res.bind_ok]
    cases h1 : mirrorGet m (modeAddr t mode.toNat (groupSlot g + 1)).toNat with
    | none => rw [readEntry_of_none h1, Res.bind_miss]
    | some b1 =>
      rw [readEntry_of_some h1, Res.bind_ok]
      cases h2 : mirrorGet m (modeAddr t mode.toNat (groupSlot g + 2)).toNat with
      | none => rw [readEntry_of_none h2, Res.bind_miss]
      | some b2 =>
        rw [readEntry_of_some h2, Res.bind_ok]
        cases h3 : mirrorGet m (modeAddr t mode.toNat (groupSlot g + 3)).toNat with
        | none => rw [readEntry_of_none h3, Res.bind_miss]
        | some k => simp only [readEntry_of_some h3, Res.bind_ok, ne_eq, eq_ck_three_iff, ite_not]

theorem exec_fieldRd_scalar (n : Byte) (s : State) : exec (.fieldRd (.scalar n)) s = .next { s with results :=
    s.results ++ [(fieldNamed n).bind fun f => (readScalar s.cfg.val s.mirror f).map .byte] } := rfl

theorem exec_fieldRd_triple (m : Byte) (g : Group) (s : State) : exec (.fieldRd (.triple m g)) s = .next { s with
    results := s.results ++ [(readTriple s.cfg.val s.mirror m g).map .bytes] } := rfl

/-- Settles O24: `readScalar_eq` and `readTriple_eq`, with the addresses tied to the tables. -/
theorem fieldRdChecksPair : Obligations.FieldRdChecksPair := by
  intro s
  simp only [exec_fieldRd_scalar, exec_fieldRd_triple]
  refine ⟨fun _ => ⟨_, rfl⟩, fun n hn => ?badName, fun m g hm => ?badMode, fun f => ?scalar, fun m g o hm ho => ?triple⟩
  case badName => rw [fieldNamed_of_gt hn, Res.bind_refused]
  case badMode => rw [readTriple_badMode s.cfg.val s.mirror g hm, Res.map_refused]
  case scalar =>
    refine ⟨addrOf s.cfg.val f, scalars_getElem? s.cfg f, ?_⟩
    rw [fieldNamed_fieldIndex, Res.bind_ok, readScalar_eq]
    cases mirrorGet s.mirror (addrOf s.cfg.val f).addr.toNat with
    | none => rfl
    | some v =>
      cases mirrorGet s.mirror (addrOf s.cfg.val f).cks.toNat with
      | none => rfl
      | some k => simp only [apply_ite (Res.map _), Res.map_ok, Res.map_error]
  case triple =>
    obtain rfl : o = groupSlot g := ho.trans (by cases g <;> rfl)
    obtain ⟨o0, ho0, ha0⟩ := groupAddr_spec s.cfg g hm (i := 0) (by decide)
    obtain ⟨o1, ho1, ha1⟩ := groupAddr_spec s.cfg g hm (i := 1) (by decide)
    obtain ⟨o2, ho2, ha2⟩ := groupAddr_spec s.cfg g hm (i := 2) (by decide)
    obtain ⟨o3, ho3, ha3⟩ := groupAddr_spec s.cfg g hm (i := 3) (by decide)
    rw [Nat.add_zero] at ho0 ha0
    refine ⟨_, _, _, _, o0, o1, o2, o3, ho0, ho1, ho2, ho3, ha0, ha1, ha2, ha3, ?_⟩
    rw [readTriple_eq s.cfg.val s.mirror g hm]
    cases mirrorGet s.mirror (modeAddr s.cfg.val m.toNat (groupSlot g)).toNat with
    | none => rfl
    | some b0 =>
      cases mirrorGet s.mirror (modeAddr s.cfg.val m.toNat (groupSlot g + 1)).toNat with
      | none => rfl
      | some b1 =>
        cases mirrorGet s.mirror (modeAddr s.cfg.val m.toNat (groupSlot g + 2)).toNat with
        | none => rfl
        | some b2 =>
          cases mirrorGet s.mirror (modeAddr s.cfg.val m.toNat (groupSlot g + 3)).toNat with
          | none => rfl
          | some k => simp only [apply_ite (Res.map _), Res.map_ok, Res.map_error]

end Sys2Proof.Machine
end

section
/-! What a step can do, once: what it takes next (`Takes`), and what a turn does with it (`Turn`). The invariants of the
block (10_state, 46_host_sequences, 60_exceptions) come down to these two. -/

namespace Sys2Proof.Machine

/-! ## Operations -/

/-- What a mirror can become: it stays, it is cleared as a whole (R145, R170, R197), or entries are merged in (R142, R144). -/
inductive MirrorChange (m : List Host.Cell) : List Host.Cell → Prop
  | same : MirrorChange m m
  | cleared : MirrorChange m []
  | merged (cells : List Host.Cell) (hcells : ∀ c ∈ cells, c.1 < 256) : MirrorChange m (mirrorMerge m cells)

theorem MirrorChange.wf {m m' : List Host.Cell} (h : MirrorChange m m') (hm : mirrorWf m = true) :
    mirrorWf m' = true := by
  cases h with
  | same => exact hm
  | cleared => exact mirrorWf_nil
  | merged cells hcells => exact mirrorMerge_wf cells m hcells hm

/-- A merge takes no valid bit away. -/
theorem MirrorChange.all_cleared {m m' : List Host.Cell} (h : MirrorChange m m') {a : Nat}
    (hold : (mirrorGet m a).isSome = true) (hnew : mirrorGet m' a = none) : ∀ b, mirrorGet m' b = none := by
  cases h with
  | same => simp [hnew] at hold
  | cleared => exact mirrorGet_nil
  | merged cells _ =>
    have hsome := mirrorGet_merge_isSome cells m a hold
    simp [hnew] at hsome

theorem windowCells_lt {start : Nat} {d : Bytes} (h : start + d.length ≤ 256) : ∀ c ∈ windowCells start d, c.1 < 256 := by
  intro c hc
  obtain ⟨j, hj, rfl⟩ := (mem_windowCells d start c).mp hc
  simp only
  omega

theorem mapCells_lt (w : ByteMap) : ∀ c ∈ mapCells w, c.1 < 256 := List.forall_mem_map.mpr fun e _ => e.1.isLt

theorem mirFill_change {m m' : List Host.Cell} {start : Byte} {d : Bytes} (h : mirFill m start d = .ok m') :
    MirrorChange m m' := by
  rcases mirFill_cases m start d with ⟨_, h1⟩ | ⟨_, _, _, h1⟩ | ⟨_, _, hfits, h1⟩ <;> rw [h1] at h <;> cases h
  exact .merged _ (windowCells_lt hfits)

theorem mirWr_change {m m' : List Host.Cell} {w : ByteMap} (h : mirWr m w = .ok m') : MirrorChange m m' := by
  rcases mirWr_cases m w with ⟨_, h1⟩ | ⟨_, h1⟩ <;> rw [h1] at h <;> cases h
  exact .merged _ (mapCells_lt w)

/-- The outcome of an operation (R177, R186): a result and nothing else, or `Ok(())` with the mirror or the profile cache
written, by the operations that do so. -/
inductive Operates (op : Byte) (s : State) : State → Prop
  | answers (r : Result) : Operates op s { s with results := s.results ++ [r] }
  | mirror (m : List Host.Cell) (hop : op ∈ ([0x15, 0x16, 0x17] : Bytes)) (hm : MirrorChange s.mirror m) :
      Operates op s { s with mirror := m, results := s.results ++ [.ok .unit] }
  | profile (p : Option Byte) (hop : op ∈ ([0x1a, 0x1b] : Bytes)) :
      Operates op s { s with prof := p, results := s.results ++ [.ok .unit] }

theorem merged_operates {op : Byte} (s : State) (r : Res (List Host.Cell)) (hop : op ∈ ([0x15, 0x16, 0x17] : Bytes))
    (hr : ∀ m, r = .ok m → MirrorChange s.mirror m) : Operates op s (s.merged r) := by
  rcases merged_cases s r with ⟨m, hm, h⟩ | ⟨x, _, h⟩ <;> rw [h]
  · exact .mirror m hop (hr m hm)
  · exact .answers x

theorem exec_operates {i : Instr} {op : Byte} (s : State) (hi : opSelect i = some op) :
    ∃ t, exec i s = .next t ∧ Operates op s t := by
  cases i with
  | mirFill start d =>
    cases hi
    exact ⟨_, exec_mirFill start d s, merged_operates s _ (by decide) fun _ => mirFill_change⟩
  | mirWr w =>
    cases hi
    exact ⟨_, exec_mirWr w s, merged_operates s _ (by decide) fun _ => mirWr_change⟩
  | mirClr =>
    cases hi
    exact ⟨_, exec_mirClr s, merged_operates s _ (by decide) fun m hm => by cases hm; exact .cleared⟩
  | profWr p =>
    cases hi
    exact ⟨_, exec_profWr p s, .profile _ (by decide)⟩
  | profClr =>
    cases hi
    exact ⟨_, exec_profClr s, .profile _ (by decide)⟩
  | statusReq | powerReq | restore | activeProfileGetReq => cases hi
  | statusRsp | powerRsp | memSetReq | memSetRsp | memGetReq | memGetRsp | deviceEvent => cases hi
  | activeProfileGetRsp | activeProfileSet => cases hi
  | _ => exact ⟨_, rfl, .answers _⟩

/-- Settles O27: the three outcomes of an operation (`exec_operates`). -/
theorem operationsTouchOnlyTheirState : Obligations.OperationsTouchOnlyTheirState := by
  intro i op s hi
  obtain ⟨t, hexec, hop⟩ := exec_operates s hi
  cases hop with
  | answers r => exact ⟨s.mirror, s.prof, r, hexec, fun _ => rfl, fun _ => rfl, fun _ => ⟨rfl, rfl⟩⟩
  | mirror m hmir _ =>
    exact ⟨m, s.prof, .ok .unit, hexec, fun h => absurd hmir h, fun _ => rfl, fun h => absurd rfl (h .unit)⟩
  | profile p hprof =>
    exact ⟨s.mirror, p, .ok .unit, hexec, fun _ => rfl, fun h => absurd hprof h, fun h => absurd rfl (h .unit)⟩

/-! ## Turns of the sequencer -/

/-- The mirror inside a turn, before its write or its return: as it was, or with the window of the scan in flight merged
(R162 step 2). -/
def MidTurn (u : State) (m : List Host.Cell) : Prop :=
  m = u.mirror ∨ ∃ (a : Byte) (rest : Bytes) (g : AfterScan) (d : Bytes),
    u.inflight = some (.scan a rest g) ∧ a.toNat + 10 ≤ 256 ∧ d.length = 10
      ∧ m = mirrorMerge u.mirror (windowCells a.toNat d)

theorem MidTurn.change {u : State} {m : List Host.Cell} (h : MidTurn u m) : MirrorChange u.mirror m := by
  obtain rfl | ⟨a, _, _, d, _, hfits, hd, rfl⟩ := h
  · exact .same
  · exact .merged _ (windowCells_lt (hd ▸ hfits))

theorem MidTurn.outside {u : State} {m : List Host.Cell} (h : MidTurn u m) {a : Byte} {rest : Bytes} {g : AfterScan}
    (hk : u.inflight = some (.scan a rest g)) {c : Nat} (hc : c < a.toNat ∨ a.toNat + 10 ≤ c) :
    mirrorGet m c = mirrorGet u.mirror c := by
  obtain rfl | ⟨a', _, _, d, hk', _, hd, rfl⟩ := h
  · rfl
  · rw [hk] at hk'
    cases hk'
    rw [mirrorGet_merge_window, if_neg (by omega)]

theorem MidTurn.eq_of_no_scan {u : State} {m : List Host.Cell} (h : MidTurn u m)
    (hk : ∀ a rest g, u.inflight ≠ some (.scan a rest g)) : m = u.mirror := by
  obtain rfl | ⟨a, rest, g, _, hscan, _⟩ := h
  · rfl
  · exact absurd hscan (hk a rest g)

/-- What a MEM_SET frame needs to be written (R165 steps 2 and 3): the sequence holds the write map whose frame it is, and
what the turn has read is a valid STATUS reply that says on. -/
def MemSetAllowed (read : Option Bytes) (u : State) (F : Bytes) : Prop :=
  ∃ (w : ByteMap) (b : Bytes), u.inflight = some (.memSetStatus w) ∧ read = some b
    ∧ ValidFrame b ∧ b.getD 1 0 = 0x03 ∧ b.getD 6 0 ≠ 0 ∧ memsetBuild w = .ok F

/-- Everything a turn can do to the state `u` that is left when the turn has taken what it acts on; `read` is the byte
string it has read, if any. A frame is written only together with the suspension of the host in `read()`. -/
inductive Turn (read : Option Bytes) (u : State) : State → Prop
  | quiet (q : List RxItem) (w : List WriteAnswer) : Turn read u { u with rxq := q, writes := w }
  | ended (m : List Host.Cell) (p : Option Byte) (k : Option HostSeq) (w : List WriteAnswer) (r : Result)
      (hm : MirrorChange u.mirror m) (hk : k = none ∨ k = u.inflight)
      (hfail : (∀ v, r ≠ .ok v) → p = u.prof ∧ MidTurn u m) :
      Turn read u { u with mirror := m, prof := p, inflight := k, writes := w, results := u.results ++ [r] }
  | sent (m : List Host.Cell) (k : HostSeq) (w : List WriteAnswer) (F : Bytes)
      (hm : MirrorChange u.mirror m) (hF : ValidFrame F) (hk : (∀ k', u.inflight = some k' → SeqOk k') → SeqOk k)
      (hset : F.getD 1 0 = 0x07 → MemSetAllowed read u F) :
      Turn read u { u with mirror := m, inflight := some k, writes := w, tx := u.tx ++ [F] }

section
variable {read : Option Bytes} {u : State}

theorem Turn.unchanged : Turn read u u := .quiet u.rxq u.writes

theorem Turn.finish {m : List Host.Cell} (hm : MidTurn u m) (r : Result) :
    Turn read u ({ u with mirror := m }.finish r) :=
  .ended m u.prof none u.writes r hm.change (.inl rfl) fun _ => ⟨rfl, hm⟩

theorem Turn.finish_same (r : Result) : Turn read u (u.finish r) := Turn.finish (.inl rfl) r

theorem Turn.send {m : List Host.Cell} (hm : MidTurn u m) {F : Bytes} {k : HostSeq} (hF : ValidFrame F)
    (hk : (∀ k', u.inflight = some k' → SeqOk k') → SeqOk k) (hset : F.getD 1 0 = 0x07 → MemSetAllowed read u F) :
    Turn read u ({ u with mirror := m }.send F k) := by
  rcases State.send_cases { u with mirror := m } F k with h | ⟨info, h⟩ <;> rw [h]
  · exact .sent m k _ F hm.change hF hk hset
  · exact .ended m u.prof none _ _ hm.change (.inl rfl) fun _ => ⟨rfl, hm⟩

/-- The write of a request of another command than MEM_SET. -/
theorem Turn.send_request {m : List Host.Cell} (hm : MidTurn u m) {c : Byte} {A : ByteMap} {F : Bytes} {k : HostSeq}
    (hF : build c A = .ok F) (hc : c ≠ 0x07) (hk : (∀ k', u.inflight = some k' → SeqOk k') → SeqOk k) :
    Turn read u ({ u with mirror := m }.send F k) :=
  Turn.send hm (valid_of_build hF) hk fun h => absurd ((getD_one_of_build hF).symm.trans h) hc

theorem Turn.orFinish {m : List Host.Cell} (hm : MidTurn u m) {α : Type} (r : Res α) (go : α → State)
    (h : ∀ a, r = .ok a → Turn read u (go a)) : Turn read u ({ u with mirror := m }.orFinish r go) := by
  rcases State.orFinish_cases { u with mirror := m } r go with ⟨a, hr, h1⟩ | ⟨x, _, _, h1⟩ <;> rw [h1]
  · exact h a hr
  · exact Turn.finish hm x

theorem Turn.orFinish_same {α : Type} (r : Res α) (go : α → State) (h : ∀ a, r = .ok a → Turn read u (go a)) :
    Turn read u (u.orFinish r go) := Turn.orFinish (.inl rfl) r go h

theorem Turn.awaitCmd (c : Byte) (b : Bytes) (go : Bytes → State)
    (h : ValidFrame b → byteAt b 1 = c → Turn read u (go b)) : Turn read u (awaitCmd c b u go) := by
  rcases awaitCmd_cases c b u go with ⟨hv, hc, h1⟩ | ⟨_, _, h1⟩ | ⟨e, _, h1⟩ <;> rw [h1]
  · exact h hv hc
  · exact .unchanged
  · exact .finish_same _

end

/-! ## Starting a sequence -/

theorem windowTest_eq_ok {start : Byte} {length : Nat} (h : windowTest start length = .ok ()) :
    1 ≤ length ∧ length ≤ 10 ∧ start.toNat + length ≤ 256 := by
  rcases windowTest_cases start length with ⟨_, h1⟩ | ⟨_, _, _, h1⟩ | ⟨hlo, hhi, hfits, _⟩
  · rw [h1] at h
    cases h
  · rw [h1] at h
    cases h
  · exact ⟨hlo, hhi, hfits⟩

/-- What `MEMGET_BUILD` answers: the window is one, and the frame is that of its parameters (R94). -/
theorem memgetBuild_eq_ok {start : Byte} {length : Nat} {F : Bytes} (h : memgetBuild start length = .ok F) :
    (1 ≤ length ∧ length ≤ 10 ∧ start.toNat + length ≤ 256)
      ∧ build 0x08 [(2, start), (3, BitVec.ofNat 8 length)] = .ok F := by
  obtain ⟨_, htest, hF⟩ := Res.bind_eq_ok.mp h
  exact ⟨windowTest_eq_ok htest, hF⟩

section
variable {read : Option Bytes} (u : State)

theorem startIsOn_turn : Turn read u (startIsOn u) :=
  .orFinish_same _ _ fun _ hF => .send_request (.inl rfl) hF (by decide) fun _ => trivial

theorem startGetPower_turn : Turn read u (startGetPower u) :=
  .orFinish_same _ _ fun _ hF => .send_request (.inl rfl) hF (by decide) fun _ => trivial

theorem startMemRead_turn (start : Byte) (length : Nat) : Turn read u (startMemRead start length u) :=
  .orFinish_same _ _ fun _ hF => by
    obtain ⟨hwindow, hbuild⟩ := memgetBuild_eq_ok hF
    exact .send_request (.inl rfl) hbuild (by decide) fun _ => (windowOk_iff _ _).mpr hwindow

theorem requestProfile_turn : Turn read u (requestProfile u) :=
  .orFinish_same _ _ fun _ hF => .send_request (.inl rfl) hF (by decide) fun _ => trivial

theorem startSetProfile_turn (p : Byte) : Turn read u (startSetProfile p u) :=
  .orFinish_same _ _ fun _ hF => .send_request (.inl rfl) hF (by decide) fun _ => trivial

theorem startRestore_turn : Turn read u (startRestore u) :=
  .orFinish_same _ _ fun _ hF => .send_request (.inl rfl) hF (by decide) fun _ => trivial

/-- A scan asks for its next window, whose end and whose followers' ends the sequence already knows to be below 256, or
hands over its getter's read (R162, R164). -/
theorem nextWindow_turn {m : List Host.Cell} (hm : MidTurn u m) (windows : Bytes) (g : AfterScan)
    (hw : (∀ k', u.inflight = some k' → SeqOk k') → ∀ a ∈ windows, a.toNat + 10 ≤ 256) :
    Turn read u (nextWindow windows g { u with mirror := m }) := by
  cases windows with
  | nil => exact .finish hm _
  | cons a rest =>
    exact .orFinish hm _ _ fun F hF => .send_request hm (memgetBuild_eq_ok hF).2 (by decide) hw

theorem startScan_turn (g : AfterScan) : Turn read u (startScan g u) :=
  nextWindow_turn u (.inl rfl) Config.scanStarts g fun _ => by decide

theorem startGetter_turn (g : AfterScan) : Turn read u (startGetter g u) := by
  unfold startGetter
  split
  · exact startScan_turn u g
  · exact .finish_same _

theorem startMemSet_turn (w : ByteMap) : Turn read u (startMemSet w u) :=
  .orFinish_same _ _ fun p hp => .orFinish_same _ _ fun _ hF =>
    .send_request (.inl rfl) hF (by decide) fun _ => ⟨p, hp⟩

theorem startMemWrite_turn (start : Byte) (d : Bytes) : Turn read u (startMemWrite start d u) := by
  unfold startMemWrite
  split
  · exact .finish_same _
  · exact startMemSet_turn u _

theorem startSetField_turn (f : SettableField) (v : Byte) : Turn read u (startSetField f v u) := by
  unfold startSetField
  split
  · exact startMemSet_turn u _
  · exact .finish_same _

theorem startSetDpi_turn (m : Byte) (d : BitVec 32) : Turn read u (startSetDpi m d u) :=
  .orFinish_same _ _ fun _ _ => .orFinish_same _ _ fun w _ => startMemSet_turn u w

theorem startSetLed_turn (m r g b : Byte) : Turn read u (startSetLed m r g b u) := by
  unfold startSetLed
  split
  · exact .finish_same _
  · exact .orFinish_same _ _ fun w _ => startMemSet_turn u w

theorem startGetProfile_turn : Turn read u (startGetProfile u) := by
  unfold startGetProfile
  split
  · exact .finish_same _
  · exact requestProfile_turn u

theorem startCall_turn (c : HostCall) : Turn read u (startCall c u) := by
  cases c with
  | isOn => exact startIsOn_turn u
  | getPower => exact startGetPower_turn u
  | readSettings => exact startScan_turn u .nothing
  | memRead start length => exact startMemRead_turn u start length
  | memSet w => exact startMemSet_turn u w
  | memWrite start d => exact startMemWrite_turn u start d
  | setField f v => exact startSetField_turn u f v
  | getField f => exact startGetter_turn u (.getField f)
  | getProfile => exact startGetProfile_turn u
  | setProfile p => exact startSetProfile_turn u p
  | setDpi m d => exact startSetDpi_turn u m d
  | getDpi m => exact startGetter_turn u (.getDpi m)
  | setLed m r g b => exact startSetLed_turn u m r g b
  | getLed m => exact startGetter_turn u (.getLed m)
  | restore => exact startRestore_turn u

end

/-! ## Going on when `read()` has returned -/

theorem statusDec_of_valid {b : Bytes} (hb : ValidFrame b) (hc : b.getD 1 0 = 0x03) :
    statusDec b = .ok (isTrue (b.getD 6 0)) := by
  have hraw : rawFrame cmdStatus b = .ok b :=
    (rawFrame_of_valid (validationError_eq_none.mpr hb) _).trans (if_neg (not_not.mpr hc))
  rw [statusDec, hraw, Res.map_ok]
  rfl

/-- A scan's reply with the echo of its window: the data bytes are the ten of the window (R162). -/
theorem memgetDec_eq_ok {b d : Bytes} {start : Byte} {length : Nat} (hb : ValidFrame b)
    (h : memgetDec b start length = .ok d) : start.toNat + length ≤ 256 ∧ d.length = length := by
  rw [memgetDec_of_valid hb] at h
  split_ifs at h with hlength hover hc hecho
  cases h
  exact ⟨by omega, length_dataOf hb.1 (by omega)⟩

theorem isTrue_eq_true {b : Byte} : isTrue b = true ↔ b ≠ 0 := bne_iff_ne

section
variable {u : State}

theorem receive_scan_turn {a : Byte} {rest : Bytes} {g : AfterScan} (b : Bytes)
    (hk : u.inflight = some (.scan a rest g)) : Turn (some b) u (receive (.scan a rest g) b u) := by
  refine .awaitCmd _ _ _ fun hb _ => .orFinish_same _ _ fun d hd => .orFinish_same _ _ fun m hm => ?_
  obtain ⟨hfits, hlength⟩ := memgetDec_eq_ok hb hd
  have hmid : MidTurn u m := by
    rcases mirFill_cases u.mirror a d with ⟨_, h⟩ | ⟨_, _, _, h⟩ | ⟨_, _, _, h⟩ <;> rw [h] at hm <;> cases hm
    exact .inr ⟨a, rest, g, d, hk, hfits, hlength, rfl⟩
  exact nextWindow_turn u hmid rest g fun hseq a' ha' => hseq _ hk a' (List.mem_cons_of_mem _ ha')

/-- The STATUS reply decides whether the MEM_SET frame is written (R165 steps 2 and 3). -/
theorem receive_memSetStatus_turn {w : ByteMap} (b : Bytes) (hk : u.inflight = some (.memSetStatus w)) :
    Turn (some b) u (receive (.memSetStatus w) b u) := by
  refine .awaitCmd _ _ _ fun hb hc => .orFinish_same _ _ fun on hon => ?_
  rw [statusDec_of_valid hb hc] at hon
  cases hon
  unfold writeIfOn
  split
  · rename_i htrue
    have hspan (hseq : ∀ k', u.inflight = some k' → SeqOk k') : ∃ p, spanCheck w = .ok p := hseq _ hk
    exact .orFinish_same _ _ fun F hF => .send (m := u.mirror) (.inl rfl) (valid_of_memsetBuild hF) hspan fun _ =>
      ⟨w, b, hk, rfl, hb, hc, isTrue_eq_true.mp htrue, hF⟩
  · exact .finish_same _

theorem receive_memSetAck_turn {w : ByteMap} (b : Bytes) : Turn (some b) u (receive (.memSetAck w) b u) := by
  refine .awaitCmd _ _ _ fun _ _ => .orFinish_same _ _ fun _ _ => .orFinish_same _ _ fun m hm => ?_
  exact .ended m u.prof none u.writes (.ok .unit) (mirWr_change hm) (.inl rfl) fun h => absurd rfl (h .unit)

theorem Turn.cacheProfile {read : Option Bytes} (p : Byte) (v : Val) : Turn read u ((u.cacheProfile p).finish (.ok v)) :=
  .ended u.mirror (some p) none u.writes (.ok v) .same (.inl rfl) fun h => absurd rfl (h v)

theorem receive_getProfile_turn (b : Bytes) : Turn (some b) u (receive .getProfile b u) := by
  refine .orFinish_same _ _ fun v _ => ?_
  split
  · exact .cacheProfile _ _
  · exact .unchanged

theorem receive_setProfile_turn (p : Byte) (b : Bytes) : Turn (some b) u (receive (.setProfile p) b u) := by
  refine .orFinish_same _ _ fun v _ => ?_
  split
  · split
    · exact .finish_same _
    · exact .cacheProfile _ _
  · exact .unchanged

theorem receive_restore_turn (b : Bytes) : Turn (some b) u (receive .restore b u) := by
  refine .orFinish_same _ _ fun F _ => ?_
  split
  · exact .ended [] none none u.writes (.ok .unit) .cleared (.inl rfl) fun h => absurd rfl (h .unit)
  · exact .finish_same _

theorem receive_turn {k : HostSeq} (b : Bytes) (hk : u.inflight = some k) : Turn (some b) u (receive k b u) := by
  cases k with
  | isOn => exact .awaitCmd _ _ _ fun _ _ => .finish_same _
  | getPower => exact .awaitCmd _ _ _ fun _ _ => .finish_same _
  | memRead start length => exact .awaitCmd _ _ _ fun _ _ => .finish_same _
  | scan a rest g => exact receive_scan_turn b hk
  | memSetStatus w => exact receive_memSetStatus_turn b hk
  | memSetAck w => exact receive_memSetAck_turn b
  | getProfile => exact receive_getProfile_turn b
  | setProfile p => exact receive_setProfile_turn p b
  | restore => exact receive_restore_turn b

end

/-! ## Frames on the wire -/

/-- While a sequence waits in `read()`, every byte string goes to it, whatever form it has (log 5). -/
theorem runWire_inflight {u : State} {k : HostSeq} (F : Bytes) (hk : u.inflight = some k) :
    runWire F u = .next (receive k F u) := by
  unfold runWire
  split
  · rename_i i hdec
    obtain ⟨c, p, c', rfl, hp, hform⟩ := decodeFrame_eq_ok hdec
    exact exec_wire_inflight i _ u k (decodeForm_eq_ok hp hform).1 hk
  · rw [deliver, hk]

/-- With no sequence waiting, a request form starts one, once its checksum has been checked (log 7). -/
theorem receiveOrIssue_idle (F : Bytes) (start : State → State) {u : State} (hk : u.inflight = none) :
    receiveOrIssue F start u = u.orFinish (rxcheck F) fun _ => start u := by
  rw [receiveOrIssue, hk]

/-- With no sequence waiting, what arrives stays in the transport (R183). -/
theorem deliver_idle (F : Bytes) {u : State} (hk : u.inflight = none) : deliver F u = u.enqueue (.bytes F) := by
  rw [deliver, hk]

theorem receiveOrIssue_idle_turn {read : Option Bytes} (F : Bytes) {start : State → State} {u : State}
    (hk : u.inflight = none) (h : Turn read u (start u)) : Turn read u (receiveOrIssue F start u) := by
  rw [receiveOrIssue_idle F start hk]
  exact .orFinish_same _ _ fun _ _ => h

theorem deliver_idle_turn {read : Option Bytes} (F : Bytes) {u : State} (hk : u.inflight = none) :
    Turn read u (deliver F u) := by
  rw [deliver_idle F hk]
  exact .quiet _ u.writes

theorem issueMemSet_turn {read : Option Bytes} (start length : Byte) (d : Bytes) (u : State) :
    Turn read u (issueMemSet start length d u) := by
  unfold issueMemSet
  split
  · exact .finish_same _
  · exact startMemWrite_turn u _ _

/-- A frame form with no sequence in flight: a request is issued, a response stays in the transport (log 5). -/
theorem exec_wire_idle_turn {read : Option Bytes} {i : Instr} {u : State} (hi : opSelect i = none)
    (hk : u.inflight = none) : ∃ t, exec i u = .next t ∧ Turn read u t := by
  cases i with
  | statusReq => exact ⟨_, rfl, receiveOrIssue_idle_turn _ hk (startIsOn_turn u)⟩
  | powerReq => exact ⟨_, rfl, receiveOrIssue_idle_turn _ hk (startGetPower_turn u)⟩
  | memSetReq start length d c => exact ⟨_, rfl, receiveOrIssue_idle_turn _ hk (issueMemSet_turn start length d u)⟩
  | memGetReq start length c => exact ⟨_, rfl, receiveOrIssue_idle_turn _ hk (startMemRead_turn u start _)⟩
  | restore => exact ⟨_, rfl, receiveOrIssue_idle_turn _ hk (startRestore_turn u)⟩
  | activeProfileGetReq => exact ⟨_, rfl, receiveOrIssue_idle_turn _ hk (requestProfile_turn u)⟩
  | activeProfileSet p c => exact ⟨_, rfl, receiveOrIssue_idle_turn _ hk (startSetProfile_turn u p)⟩
  | statusRsp | powerRsp | memSetRsp | memGetRsp | deviceEvent => exact ⟨_, rfl, deliver_idle_turn _ hk⟩
  | activeProfileGetRsp p c => exact ⟨_, rfl, deliver_idle_turn _ hk⟩
  | _ => cases hi

theorem opSelect_of_decodeFrame {cap : Byte} {F : Bytes} {i : Instr} (h : decodeFrame cap F = .ok i) :
    opSelect i = none := by
  obtain ⟨c, p, k, rfl, hp, hform⟩ := decodeFrame_eq_ok h
  cases hi : opSelect i with
  | none => rfl
  | some op =>
    obtain ⟨_, r, henc⟩ := encode_of_opSelect cap hi
    rw [(decodeForm_eq_ok hp hform).1] at henc
    cases henc

theorem runWire_idle_turn {read : Option Bytes} (F : Bytes) {u : State} (hk : u.inflight = none) :
    ∃ t, runWire F u = .next t ∧ Turn read u t := by
  unfold runWire
  split
  · exact exec_wire_idle_turn (opSelect_of_decodeFrame ‹_›) hk
  · exact ⟨_, rfl, deliver_idle_turn F hk⟩

/-! ## What a step takes -/

/-- Everything a step can take, with what then stands at the port and in `RXQ`. -/
inductive Takes (s : State) : Fetched → Prop
  | reset (q : List RxItem) (r : List PortItem) : Takes s (.reset { s with rxq := q, port := r })
  | issued (F : Bytes) (r : List PortItem) (hk : s.inflight = none) (hp : s.port = .word (.wire F) :: r) :
      Takes s (.wire F { s with port := r })
  | read (b : Bytes) (t : State) (h : Reads s b t) : Takes s (.wire b t)
  | op (bs : Bytes) (r : List PortItem) (hk : s.inflight = none) (hp : s.port = .word (.op bs) :: r) :
      Takes s (.op bs { s with port := r })
  | call (c : HostCall) (r : List PortItem) : Takes s (.call c { s with port := r })
  | unread (b : Bytes) (r : List PortItem) : Takes s (.unread b { s with port := r })
  | readFails (info : Bytes) (q : List RxItem) (r : List PortItem) :
      Takes s (.readFails info { s with rxq := q, port := r })
  | answers (a : WriteAnswer) (r : List PortItem) : Takes s (.answers a { s with port := r })
  | passed (r : List PortItem) : Takes s (.passed { s with port := r })
  | idle : Takes s .idle

theorem fetchPort_takes {s : State} (h : s.inflight = none ∨ s.rxq = []) : Takes s (fetchPort s) := by
  unfold fetchPort
  split
  · exact .idle
  · exact .reset s.rxq _
  · exact .reset s.rxq _
  · exact .readFails _ s.rxq _
  · exact .answers _ _
  · exact .passed _
  · rename_i b r hp
    split
    · rename_i hk
      exact .read b _ ⟨hk, .inr ⟨h.resolve_left fun hn => by simp [hn] at hk, r, hp, rfl⟩⟩
    · exact .unread b r
  · rename_i F r hp
    split
    · exact .idle
    · rename_i hk
      exact .issued F r (by simpa using hk) hp
  · rename_i bs r hp
    split
    · exact .idle
    · rename_i hk
      exact .op bs r (by simpa using hk) hp
  · split
    · exact .idle
    · exact .call _ _

theorem fetchNext_takes {s : State} (h : NoResetNext s) : Takes s (fetchNext s) := by
  unfold fetchNext
  split
  · rename_i b q hk hq
    exact .read b _ ⟨by rw [hk]; rfl, .inl ⟨h, q, hq, rfl⟩⟩
  · exact .readFails _ _ _
  · rename_i hbytes hfails
    refine fetchPort_takes ?_
    cases hk : s.inflight with
    | none => exact .inl rfl
    | some k =>
      cases hq : s.rxq with
      | nil => exact .inr rfl
      | cons x q =>
        cases x with
        | bytes b => exact absurd hq (hbytes k b q hk)
        | fails info => exact absurd hq (hfails k info q hk)

theorem turnTaken_wire (s : State) (F : Bytes) (q : List RxItem) (r : List PortItem) :
    ∃ q' r', turnTaken s (.wire F { s with rxq := q, port := r }) = { s with rxq := q', port := r' } := by
  simp only [turnTaken]
  split <;> exact ⟨_, _, rfl⟩

theorem turnTaken_readFails (s : State) (info : Bytes) (q : List RxItem) (r : List PortItem) :
    ∃ q' r', turnTaken s (.readFails info { s with rxq := q, port := r }) = { s with rxq := q', port := r' } := by
  simp only [turnTaken]
  split <;> exact ⟨_, _, rfl⟩

/-- A reset inside a turn finds the state that the turn has taken from, but for the queues. The cases are the items of the
port in the order of `fetchPort`. -/
theorem turnTaken_eq (s : State) : ∃ q r, turnTaken s (fetchNext s) = { s with rxq := q, port := r } := by
  unfold fetchNext
  split
  · exact turnTaken_wire s _ _ _
  · exact turnTaken_readFails s _ _ _
  · unfold fetchPort
    split
    · exact ⟨_, _, rfl⟩
    · exact ⟨_, _, rfl⟩
    · exact ⟨_, _, rfl⟩
    · exact turnTaken_readFails s _ s.rxq _
    · exact ⟨_, _, rfl⟩
    · exact ⟨_, _, rfl⟩
    · split
      · exact turnTaken_wire s _ s.rxq _
      · exact ⟨_, _, rfl⟩
    · split
      · exact ⟨_, _, rfl⟩
      · exact turnTaken_wire s _ s.rxq _
    · split <;> exact ⟨_, _, rfl⟩
    · split <;> exact ⟨_, _, rfl⟩

theorem fetch_takes (s : State) : Takes s (fetch s) := by
  unfold fetch
  split
  · exact .reset s.rxq _
  · rename_i r hp
    obtain ⟨q, r', h⟩ := turnTaken_eq { s with port := r }
    rw [h]
    exact .reset q r'
  · rename_i hreset hturn
    refine fetchNext_takes ⟨fun h => ?_, fun h => ?_⟩
    · obtain ⟨r, hr⟩ := List.head?_eq_some_iff.mp h
      exact hreset r hr
    · obtain ⟨r, hr⟩ := List.head?_eq_some_iff.mp h
      exact hturn r hr

/-! ## What a step does -/

/-- Everything a step can do: the reset input (R197), or a turn on the state that is left of `s` when the step has taken
what it acts on. What the turn has read, `read()` has returned. -/
inductive Steps (s : State) : State → Prop
  | reset (q : List RxItem) (r : List PortItem) : Steps s ({ s with rxq := q, port := r } : State).applyReset
  | turn (read : Option Bytes) (q : List RxItem) (r : List PortItem) (t : State)
      (hread : ∀ b, read = some b → Reads s b { s with rxq := q, port := r })
      (h : Turn read { s with rxq := q, port := r } t) : Steps s t

theorem Steps.unread {s t : State} {q : List RxItem} {r : List PortItem}
    (h : Turn none { s with rxq := q, port := r } t) : Steps s t := .turn none q r t (fun _ h => by cases h) h

theorem Operates.turn {op : Byte} {u t : State} (h : Operates op u t) : Turn none u t := by
  cases h with
  | answers r => exact .ended u.mirror u.prof u.inflight u.writes r .same (.inr rfl) fun _ => ⟨rfl, .inl rfl⟩
  | mirror m _ hm => exact .ended m u.prof u.inflight u.writes (.ok .unit) hm (.inr rfl) fun h => absurd rfl (h .unit)
  | profile p _ => exact .ended u.mirror p u.inflight u.writes (.ok .unit) .same (.inr rfl) fun h => absurd rfl (h .unit)

theorem reads_shape {s t : State} {b : Bytes} (h : Reads s b t) : ∃ q r, t = { s with rxq := q, port := r } := by
  obtain ⟨_, ⟨_, q, _, rfl⟩ | ⟨_, r, _, rfl⟩⟩ := h
  · exact ⟨q, _, rfl⟩
  · exact ⟨s.rxq, r, rfl⟩

/-- The step that reads the byte string `b` gives it to the sequence in flight. -/
theorem step_of_reads {s t : State} {b : Bytes} {k : HostSeq} (h : Reads s b t) (hk : s.inflight = some k) :
    step s = .next (receive k b t) := by
  rw [step, fetch_of_reads h]
  exact runWire_inflight b ((inflight_of_reads h).trans hk)

/-- An operation word is run if it is one, and refused otherwise (log 16). -/
theorem runOp_cases (bs : Bytes) (u : State) :
    (∃ t, runOp bs u = .next t ∧ Turn none u t) ∨ ∃ e, decodeOp bs = .error e ∧ runOp bs u = .refused (.portWord e) := by
  unfold runOp
  cases hdec : decodeOp bs with
  | error e => exact .inr ⟨e, rfl, rfl⟩
  | ok i =>
    cases bs with
    | nil => cases hdec
    | cons b r =>
      obtain ⟨op, hi, _⟩ := opSelect_of_decodeOperands (Nat.mod_lt b.toNat (by decide)) hdec
      obtain ⟨t, hexec, hop⟩ := exec_operates u hi
      exact .inl ⟨t, hexec, hop.turn⟩

/-- A step answers a next state as `Steps` says, or refuses a malformed operation word. -/
theorem step_cases (s : State) : (∃ t, step s = .next t ∧ Steps s t) ∨
    ∃ (bs : Bytes) (r : List PortItem) (e : DecodeError), s.inflight = none ∧ s.port = .word (.op bs) :: r
      ∧ decodeOp bs = .error e ∧ step s = .refused (.portWord e) := by
  have htakes := fetch_takes s
  unfold step
  generalize fetch s = f at htakes
  cases htakes with
  | reset q r => exact .inl ⟨_, rfl, .reset q r⟩
  | issued F r hk hp =>
    obtain ⟨t, hrun, hturn⟩ := runWire_idle_turn F (u := { s with port := r }) hk
    exact .inl ⟨t, hrun, .unread (q := s.rxq) hturn⟩
  | read b t h =>
    obtain ⟨q, r, rfl⟩ := reads_shape h
    obtain ⟨k, hk⟩ := Option.isSome_iff_exists.mp h.1
    refine .inl ⟨_, runWire_inflight b hk, .turn (some b) q r _ (fun b' hb => ?_) (receive_turn b hk)⟩
    cases hb
    exact h
  | op bs r hk hp =>
    rcases runOp_cases bs { s with port := r } with ⟨t, hrun, hturn⟩ | ⟨e, hdec, hrun⟩
    · exact .inl ⟨t, hrun, .unread (q := s.rxq) hturn⟩
    · exact .inr ⟨bs, r, e, hk, hp, hdec, hrun⟩
  | call c r => exact .inl ⟨_, rfl, .unread (q := s.rxq) (startCall_turn _ c)⟩
  | unread b r => exact .inl ⟨_, rfl, .unread (q := s.rxq) (.quiet _ s.writes)⟩
  | readFails info q r =>
    refine .inl ⟨_, rfl, .unread (q := q) (r := r) ?_⟩
    unfold deliverFailure
    split
    · exact .finish_same _
    · exact .quiet _ s.writes
  | answers a r => exact .inl ⟨_, rfl, .unread (q := s.rxq) (.quiet _ _)⟩
  | passed r => exact .inl ⟨_, rfl, .unread (q := s.rxq) .unchanged⟩
  | idle => exact .inl ⟨s, rfl, .unread (q := s.rxq) (r := s.port) .unchanged⟩

theorem steps_of_step {s t : State} (h : step s = .next t) : Steps s t := by
  rcases step_cases s with ⟨t', hstep, hsteps⟩ | ⟨_, _, _, _, _, _, hstep⟩ <;> rw [h] at hstep <;> cases hstep
  exact hsteps

/-- Settles O33: `step_cases`. -/
theorem stepAlwaysAnswers : Obligations.StepAlwaysAnswers := by
  intro s
  rcases step_cases s with ⟨t, hstep, _⟩ | hrefused
  · exact .inl ⟨t, hstep⟩
  · exact .inr hrefused

/-! ## What every step keeps -/

theorem Turn.cfg {read : Option Bytes} {u t : State} (h : Turn read u t) : t.cfg = u.cfg := by
  cases h <;> rfl

/-- Settles O36: neither the reset nor a turn writes the tables. -/
theorem tablesNeverChange : Obligations.TablesNeverChange := by
  intro s t hstep
  cases steps_of_step hstep with
  | reset q r => rfl
  | turn read q r _ _ h => exact h.cfg

theorem Turn.mirrorChange {read : Option Bytes} {u t : State} (h : Turn read u t) : MirrorChange u.mirror t.mirror := by
  cases h with
  | quiet q w => exact .same
  | ended m p k w r hm => exact hm
  | sent m k w F hm => exact hm

theorem mirrorChange_of_step {s t : State} (h : step s = .next t) : MirrorChange s.mirror t.mirror := by
  cases steps_of_step h with
  | reset q r => exact .cleared
  | turn read q r _ _ h => exact h.mirrorChange

/-- Settles O37: a step clears the mirror or merges into it. -/
theorem validBitsClearTogether : Obligations.ValidBitsClearTogether :=
  fun _ _ _ hstep hold hnew => (mirrorChange_of_step hstep).all_cleared hold hnew

/-- The frames and the sequence of the invariant, over a turn. -/
theorem Turn.keepsInv {read : Option Bytes} {u t : State} (h : Turn read u t) (hu : Inv u) : Inv t := by
  obtain ⟨hmir, htx, hseq⟩ := hu
  refine ⟨h.mirrorChange.wf hmir, ?_⟩
  cases h with
  | quiet q w => exact ⟨htx, hseq⟩
  | ended m p k w r hm hk =>
    refine ⟨htx, fun k' hk' => ?_⟩
    rcases hk with rfl | rfl
    · cases hk'
    · exact hseq k' hk'
  | sent m k w F hm hF hk =>
    refine ⟨fun G hG => ?_, fun k' hk' => ?_⟩
    · rcases List.mem_append.mp hG with hG | hG
      · exact htx G hG
      · exact List.mem_singleton.mp hG ▸ hF
    · cases hk'
      exact hk hseq

/-- Settles O38: the reset leaves no entry and no sequence; a turn keeps the invariant. -/
theorem stepKeepsInvariant : Obligations.StepKeepsInvariant := by
  intro s t hs hstep
  cases steps_of_step hstep with
  | reset q r =>
    obtain ⟨_, htx, _⟩ := hs
    exact ⟨mirrorWf_nil, htx, fun _ hk => nomatch hk⟩
  | turn read q r _ _ h => exact h.keepsInv hs

/-- Settles O39: no entry, no frame, no sequence. -/
theorem resetHasInvariant : Obligations.ResetHasInvariant :=
  ⟨reset_mirrorWf, fun _ hF => (List.not_mem_nil hF).elim, fun _ hk => nomatch hk⟩

/-- Settles O40: of the outcomes of a step only `Turn.sent` writes. -/
theorem oneRequestInFlight : Obligations.OneRequestInFlight := by
  intro s t hstep
  cases steps_of_step hstep with
  | reset q r => exact .inl rfl
  | turn read q r _ _ h =>
    cases h with
    | quiet | ended => exact .inl rfl
    | sent m k w F hm hF => exact .inr ⟨F, rfl, hF, rfl, rfl⟩

theorem append_singleton_ne_self {α : Type} (l : List α) (a : α) : l ≠ l ++ [a] := by simp

/-- Settles O55: a MEM_SET frame among what `Turn.sent` writes. -/
theorem memSetOnlyAfterStatusOn : Obligations.MemSetOnlyAfterStatusOn := by
  intro s t F hstep htx hF
  cases steps_of_step hstep with
  | reset q r => exact absurd htx (append_singleton_ne_self _ _)
  | turn read q r _ hread h =>
    cases h with
    | quiet | ended => exact absurd htx (append_singleton_ne_self _ _)
    | sent m k w G hm hG hk hset =>
      cases List.append_cancel_left htx
      obtain ⟨w', b, hseq, hb, hvalid, hstatus, hon, hbuild⟩ := hset hF
      exact ⟨w', b, _, hseq, hread b hb, hvalid, hstatus, hon, by rw [exec_memsetBuild, hbuild, Res.map_ok]⟩

/-- Settles O60: of the outcomes of a step only `Turn.ended` hands over a result. -/
theorem failuresWriteNoState : Obligations.FailuresWriteNoState := by
  intro s t x hstep hres hx
  cases steps_of_step hstep with
  | reset q r => exact absurd hres (append_singleton_ne_self _ _)
  | turn read q r _ _ h =>
    cases h with
    | quiet | sent => exact absurd hres (append_singleton_ne_self _ _)
    | ended m p k w y hm hk hfail =>
      cases List.append_cancel_left hres
      obtain ⟨hp, hmid⟩ := hfail hx
      exact ⟨hp, hmid.eq_of_no_scan, fun _ _ _ hscan _ hc => hmid.outside hscan hc⟩

end Sys2Proof.Machine
end

section
/-! What a step takes, one equation per head of the port, and the statements about single steps: the decoded instruction,
the reset input, a blocked read, and what arrives while nobody reads (10_state, 60_exceptions, 70_reset_and_hazards). -/

namespace Sys2Proof.Machine

/-! ## One equation per head of the port -/

section
variable {s : State} {r : List PortItem}

theorem fetchNext_idle (hk : s.inflight = none) : fetchNext s = fetchPort s := by
  simp only [fetchNext, hk]

theorem fetchNext_empty (hq : s.rxq = []) : fetchNext s = fetchPort s := by
  unfold fetchNext
  split
  · simp_all
  · simp_all
  · rfl

theorem noReset_of_head {x : PortItem} (hp : s.port = x :: r) (hx : x ≠ .reset) (hx' : x ≠ .resetInTurn) :
    NoResetNext s := by
  rw [NoResetNext, hp]
  exact ⟨fun h => hx (Option.some.inj h), fun h => hx' (Option.some.inj h)⟩

theorem step_word (w : PortWord) (hk : s.inflight = none) (hp : s.port = .word w :: r) :
    step s = match w with
      | .wire F => runWire F { s with port := r }
      | .op bs => runOp bs { s with port := r } := by
  rw [step, fetch_of_noReset (noReset_of_head hp (by simp) (by simp)), fetchNext_idle hk]
  cases w <;> simp only [fetchPort, hp, hk, Option.isSome_none] <;> rfl

/-- The host starts a sequence when none is in flight (R157). -/
theorem step_call {c : HostCall} (hk : s.inflight = none) (hp : s.port = .call c :: r) :
    step s = .next (startCall c { s with port := r }) := by
  rw [step, fetch_of_noReset (noReset_of_head hp (by simp) (by simp)), fetchNext_idle hk]
  simp only [fetchPort, hp, hk]
  rfl

theorem step_reset (hp : s.port = .reset :: r) : step s = .next ({ s with port := r } : State).applyReset := by
  simp only [step, fetch, hp]
  rfl

theorem step_resetInTurn (hp : s.port = .resetInTurn :: r) :
    step s = .next (turnTaken { s with port := r } (fetchNext { s with port := r })).applyReset := by
  simp only [step, fetch, hp]
  rfl

/-- A `TransportError` in `RXQ` ends the sequence that reads it (R155, R171). -/
theorem step_queuedFailure {info : Bytes} {q : List RxItem} (hk : s.inflight.isSome = true) (hp : NoResetNext s)
    (hq : s.rxq = .fails info :: q) : step s
      = .next (afterEnd { s with rxq := q, port := portAfterRead s.port } (.error (.transportError info))) := by
  obtain ⟨k, hk⟩ := Option.isSome_iff_exists.mp hk
  rw [step, fetch_of_noReset hp]
  simp only [fetchNext, hk, hq, runFetched, deliverFailure]
  rfl

/-- A `TransportError` that arrives while a sequence waits ends it (R155, R171). -/
theorem step_readFails {info : Bytes} (hk : s.inflight.isSome = true) (hq : s.rxq = [])
    (hp : s.port = .readFails info :: r) :
    step s = .next (afterEnd { s with port := r } (.error (.transportError info))) := by
  obtain ⟨k, hk⟩ := Option.isSome_iff_exists.mp hk
  rw [step, fetch_of_noReset (noReset_of_head hp (by simp) (by simp)), fetchNext_empty hq]
  simp only [fetchPort, hp, runFetched, deliverFailure, hk]
  rfl

end

/-! ## The decoded instruction -/

theorem runWire_of_decode {F : Bytes} {u : State} {i : Instr} (h : decodeFrame u.cfg.val.capP3 F = .ok i) :
    runWire F u = exec i u := by
  rw [runWire, h]

theorem runOp_of_decode {bs : Bytes} {i : Instr} (h : decodeOp bs = .ok i) (u : State) : runOp bs u = exec i u := by
  rw [runOp, h]

/-- Settles O32: what a step takes it runs by `runWire` or `runOp`. -/
theorem stepRunsDecodedInstruction : Obligations.StepRunsDecodedInstruction := by
  intro i s
  refine ⟨fun w r hk hp hdec => ?_, fun b t hread hdec => ?_⟩
  · rw [step_word w hk hp]
    cases w with
    | wire F => exact runWire_of_decode hdec
    | op bs => exact runOp_of_decode hdec _
  · obtain ⟨q, r, rfl⟩ := reads_shape hread
    rw [step, fetch_of_reads hread]
    exact runWire_of_decode hdec

/-! ## Reset -/

/-- Settles O34: the reset state has nothing to answer with. -/
theorem resetStateIsEmpty : Obligations.ResetStateIsEmpty := by
  refine ⟨mirrorGet_nil, rfl, rfl, rfl, rfl, ?_, fun _ => rfl, rfl⟩
  rw [exec_mirEmpty, (allInvalid_iff State.reset).mpr fun _ => rfl]
  rfl

/-- The reset input is taken before `readFirst` lets it: after one more read of the sequence in flight (log 12). -/
theorem step_readFirst {s : State} {x : RxItem} {q : List RxItem} {r : List PortItem} (hk : s.inflight.isSome = true)
    (hq : s.rxq = x :: q) (hp : s.port = .readFirst :: r) : ∃ t, step s = .next t ∧ t.rxq = q ∧ t.port = r := by
  have hreset : NoResetNext s := noReset_of_head hp (by simp) (by simp)
  have hafter : portAfterRead s.port = r := by rw [hp]; rfl
  cases x with
  | bytes b =>
    have hread : Reads s b { s with rxq := q, port := portAfterRead s.port } := ⟨hk, .inl ⟨hreset, q, hq, rfl⟩⟩
    obtain ⟨k, hk⟩ := Option.isSome_iff_exists.mp hk
    obtain ⟨hport, hrxq⟩ := receive_keepsQueues k b { s with rxq := q, port := portAfterRead s.port }
    exact ⟨_, step_of_reads hread hk, hrxq, hport.trans hafter⟩
  | fails info => exact ⟨_, step_queuedFailure hk hreset hq, rfl, hafter⟩

/-- Settles O35: in each clause the step applies the reset to what the turn has taken, if it is a turn. -/
theorem resetClearsBlockOnly : Obligations.ResetClearsBlockOnly := by
  refine ⟨fun s r hp => ?reset, fun s t b r hp hread => ?read, fun s c r hk hp => ?call, fun s bs r hk hp => ?op,
    fun s x q r hk hq hp => ?between⟩
  case reset => exact ⟨[], step_reset hp, mirrorGet_nil⟩
  case read =>
    refine ⟨[], ?_, mirrorGet_nil⟩
    rw [step, fetch_resetInTurn_reads hp hread]
    rfl
  case call =>
    refine ⟨[], ?_, mirrorGet_nil⟩
    rw [step_resetInTurn hp, fetchNext_idle (s := { s with port := .call c :: r }) hk]
    simp only [fetchPort, hk, Option.isSome_none, Bool.false_eq_true, if_false, turnTaken, State.applyReset]
  case op =>
    refine ⟨[], ?_, mirrorGet_nil⟩
    rw [step_resetInTurn hp, fetchNext_idle (s := { s with port := .word (.op bs) :: r }) hk]
    simp only [fetchPort, hk, Option.isSome_none, Bool.false_eq_true, if_false, turnTaken, State.applyReset]
  case between =>
    obtain ⟨t, hstep, hrxq, hport⟩ := step_readFirst hk hq hp
    exact ⟨t, [], hstep, hrxq, step_reset hport, mirrorGet_nil⟩

/-! ## A blocked read, and what nobody reads -/

/-- Settles O41: with nothing in `RXQ`, an item of the host is not taken from the port while a sequence waits. -/
theorem blockedReadWaits : Obligations.BlockedReadWaits := by
  intro s k hk hq hp
  have hreset : NoResetNext s := by
    rcases hp with hp | ⟨w, r, hp⟩ | ⟨c, r, hp⟩
    · simp [NoResetNext, hp]
    · exact noReset_of_head hp (by simp) (by simp)
    · exact noReset_of_head hp (by simp) (by simp)
  have hidle : fetchPort s = .idle := by
    rcases hp with hp | ⟨_ | _, r, hp⟩ | ⟨c, r, hp⟩ <;> simp [fetchPort, hp, hk]
  rw [step, fetch_of_noReset hreset, fetchNext_empty hq, hidle]
  rfl

/-- Settles O45: the response forms are delivered, and with no sequence waiting they stay in `RXQ`. -/
theorem unreadFramesStayInTransport : Obligations.UnreadFramesStayInTransport := by
  intro p v k s hk
  have hstays (F : Bytes) : (.next (deliver F s) : Outcome) = .next { s with rxq := s.rxq ++ [.bytes F] } := by
    rw [deliver_idle F hk]
    rfl
  exact ⟨hstays _, hstays _, hstays _, hstays _, hstays _, hstays _⟩

end Sys2Proof.Machine
end

section
/-! How the exchanges begin (46_host_sequences): each sequence up to its first `read()` as one write, and the request forms
that the host issues. -/

namespace Sys2Proof.Machine

/-! ## Each exchange as one write -/

/-- The STATUS request (R93). -/
abbrev statusRequest : Bytes := [0x08, 0x03, 0, 0, 0, 0, 0, 0, 0, 0, 0, 0, 0, 0, 0, 0, 0x4a]

theorem State.finish_idle {s : State} (hk : s.inflight = none) (r : Result) :
    s.finish r = { s with results := s.results ++ [r] } := by
  simp only [State.finish, hk]

section
variable (s : State)

theorem statusBuild_eq : statusBuild = .ok statusRequest := build_bare 0x03 rfl

theorem startIsOn_eq : startIsOn s = s.send statusRequest .isOn := by
  rw [startIsOn, statusBuild_eq, State.orFinish_ok]

theorem startGetPower_eq : startGetPower s
    = s.send [0x08, 0x04, 0, 0, 0, 0, 0, 0, 0, 0, 0, 0, 0, 0, 0, 0, 0x49] .getPower := by
  rw [startGetPower, serialize_requestPowerDetails, State.orFinish_ok]

theorem startRestore_eq : startRestore s
    = s.send [0x08, 0x09, 0, 0, 0, 0, 0, 0, 0, 0, 0, 0, 0, 0, 0, 0, 0x44] .restore := by
  rw [startRestore, serialize_restore, State.orFinish_ok]

theorem requestProfile_eq : requestProfile s
    = s.send [0x08, 0x0e, 0, 0, 0, 0, 0, 0, 0, 0, 0, 0, 0, 0, 0, 0, 0x3f] .getProfile := by
  rw [requestProfile, serialize_requestActiveProfile, State.orFinish_ok]

theorem startSetProfile_eq (p : Byte) : startSetProfile p s
    = s.send [0x08, 0x0f, 0, 0, 0, 0x01, p, 0, 0, 0, 0, 0, 0, 0, 0, 0, 0x3d - p] (.setProfile p) := by
  rw [startSetProfile, serialize_setActiveProfile, State.orFinish_ok]

/-- R94, R38 with the constants written out. -/
theorem windowTest_eq (start : Byte) (length : Nat) : windowTest start length =
    if length < 1 ∨ 10 < length then .refused .badLength
    else if 256 < start.toNat + length then .refused .addressOverflow
    else .ok () := rfl

/-- The MEM_GET request of a window (R94). -/
theorem memgetBuild_of_window {start n : Byte} (hlo : 1 ≤ n.toNat) (hhi : n.toNat ≤ 10)
    (hfits : start.toNat + n.toNat ≤ 256) : memgetBuild start n.toNat
      = .ok [0x08, 0x08, 0, 0, start, n, 0, 0, 0, 0, 0, 0, 0, 0, 0, 0, 0x45 - start - n] := by
  rw [memgetBuild, windowTest_eq, if_neg (by omega), if_neg hfits.not_gt, Res.bind_ok, BitVec.ofNat_toNat,
    BitVec.setWidth_eq, build_memGet]

theorem memgetBuild_badLength (start : Byte) {length : Nat} (h : length < 1 ∨ 10 < length) :
    memgetBuild start length = .refused .badLength := by
  rw [memgetBuild, windowTest_eq, if_pos h, Res.bind_refused]

theorem memgetBuild_overflow {start : Byte} {length : Nat} (hlo : 1 ≤ length) (hhi : length ≤ 10)
    (hover : 256 < start.toNat + length) : memgetBuild start length = .refused .addressOverflow := by
  rw [memgetBuild, windowTest_eq, if_neg (by omega), if_pos hover, Res.bind_refused]

theorem startMemRead_eq {start n : Byte} (hlo : 1 ≤ n.toNat) (hhi : n.toNat ≤ 10)
    (hfits : start.toNat + n.toNat ≤ 256) : startMemRead start n.toNat s
      = s.send [0x08, 0x08, 0, 0, start, n, 0, 0, 0, 0, 0, 0, 0, 0, 0, 0, 0x45 - start - n] (.memRead start n.toNat) := by
  rw [startMemRead, memgetBuild_of_window hlo hhi hfits, State.orFinish_ok]

theorem startMemSet_of_span {w : ByteMap} {lo n : Nat} (h : SpanOf w lo n) :
    startMemSet w s = s.send statusRequest (.memSetStatus w) := by
  rw [startMemSet, spanCheck_of_span h, State.orFinish_ok, statusBuild_eq, State.orFinish_ok]

theorem startMemSet_of_not_span {w : ByteMap} (h : ¬ ∃ lo n, SpanOf w lo n) :
    startMemSet w s = s.finish (.error .invalidWriteSpan) := by
  rw [startMemSet, spanCheck_of_not_span h, State.orFinish_error]

end

/-! ## The write map of a window (R165, R38) -/

theorem length_windowMap (start : Byte) (d : Bytes) : (windowMap start d).length = d.length := by
  induction d generalizing start with
  | nil => rfl
  | cons v r ih => rw [windowMap, List.length_cons, List.length_cons, ih]

/-- A window within the address space has the addresses that follow its start; none wraps. -/
theorem windowMap_keys {start : Byte} {d : Bytes} (h : start.toNat + d.length ≤ 256) :
    ((windowMap start d).map fun e => e.1.toNat) = List.range' start.toNat d.length := by
  induction d generalizing start with
  | nil => rfl
  | cons v r ih =>
    rw [List.length_cons] at h
    rw [windowMap, List.map_cons, List.length_cons, List.range'_succ]
    refine congrArg (start.toNat :: ·) ?_
    cases r with
    | nil => rfl
    | cons v' r' =>
      rw [List.length_cons] at h
      have hnext : (start + 1).toNat = start.toNat + 1 := by
        rw [BitVec.toNat_add]
        exact Nat.mod_eq_of_lt (by simp; omega)
      rw [ih (by rw [hnext, List.length_cons]; omega), hnext]

theorem mem_windowMap {start : Byte} {d : Bytes} {j : Nat} (hj : j < d.length) :
    (start + BitVec.ofNat 8 j, d.getD j 0) ∈ windowMap start d := by
  induction d generalizing start j with
  | nil => cases hj
  | cons v r ih =>
    cases j with
    | zero =>
      rw [windowMap, List.getD_cons_zero, BitVec.add_zero]
      exact List.mem_cons_self
    | succ j =>
      have hkey : start + BitVec.ofNat 8 (j + 1) = start + 1 + BitVec.ofNat 8 j := by
        rw [Nat.add_comm, BitVec.ofNat_add, ← BitVec.add_assoc]
        rfl
      rw [windowMap, List.getD_cons_succ, hkey]
      exact List.mem_cons_of_mem _ (ih (Nat.lt_of_succ_lt_succ hj))

theorem windowMap_span {start : Byte} {d : Bytes} (hlo : 1 ≤ d.length) (hhi : d.length ≤ 10)
    (h : start.toNat + d.length ≤ 256) : SpanOf (windowMap start d) start.toNat d.length :=
  spanOf_of_perm (.of_eq (windowMap_keys h)) hlo hhi

theorem not_span_nil : ¬ ∃ lo n, SpanOf [] lo n := by
  rintro ⟨lo, n, hlen, hpos, _⟩
  rw [← hlen] at hpos
  exact absurd hpos (by decide)

/-! ## A MEM_SET form issued (R165) -/

section
variable {start length : Byte} {d : Bytes} (s : State)

theorem startMemWrite_eq (start : Byte) (d : Bytes) : startMemWrite start d s =
    if 256 < start.toNat + d.length then s.finish (.refused .addressOverflow) else startMemSet (windowMap start d) s := rfl

theorem issueMemSet_eq (start length : Byte) (d : Bytes) : issueMemSet start length d s =
    if 10 < length.toNat then s.finish (.error .invalidWriteSpan)
    else startMemWrite start (d.take length.toNat) s := rfl

theorem issueMemSet_of_window (hlo : 1 ≤ length.toNat) (hhi : length.toNat ≤ 10)
    (hfits : start.toNat + length.toNat ≤ 256) (hd : d.length = 10) : issueMemSet start length d s
      = s.send statusRequest (.memSetStatus (windowMap start (d.take length.toNat))) := by
  have hlen : (d.take length.toNat).length = length.toNat := by
    rw [List.length_take]
    omega
  rw [issueMemSet_eq, if_neg hhi.not_gt, startMemWrite_eq, if_neg (by rw [hlen]; exact hfits.not_gt)]
  exact startMemSet_of_span s (windowMap_span (by omega) (by omega) (by omega))

/-- A window of no entry or of more than ten fails the span check (R143; log 6). -/
theorem issueMemSet_badLength (h : length.toNat < 1 ∨ 10 < length.toNat) :
    issueMemSet start length d s = s.finish (.error .invalidWriteSpan) := by
  rcases h with hzero | hlong
  · have hnil : d.take length.toNat = [] := by rw [Nat.lt_one_iff.mp hzero, List.take_zero]
    have hstart := start.isLt
    rw [issueMemSet_eq, if_neg (by omega), startMemWrite_eq, hnil, if_neg (by rw [List.length_nil]; omega)]
    exact startMemSet_of_not_span s not_span_nil
  · rw [issueMemSet_eq, if_pos hlong]

theorem issueMemSet_overflow (hhi : length.toNat ≤ 10) (hover : 256 < start.toNat + length.toNat) (hd : d.length = 10) :
    issueMemSet start length d s = s.finish (.refused .addressOverflow) := by
  have hlen : (d.take length.toNat).length = length.toNat := by
    rw [List.length_take]
    omega
  rw [issueMemSet_eq, if_neg hhi.not_gt, startMemWrite_eq, if_pos (by rw [hlen]; exact hover)]

end

/-! ## A request form issued (log 5) -/

theorem validFrame_setActiveProfile (p : Byte) :
    ValidFrame [0x08, 0x0f, 0, 0, 0, 0x01, p, 0, 0, 0, 0, 0, 0, 0, 0, 0, 0x3d - p] :=
  valid_of_build (build_params34 0x0f 0x01 p rfl)

theorem validFrame_memGet (start n : Byte) :
    ValidFrame [0x08, 0x08, 0, 0, start, n, 0, 0, 0, 0, 0, 0, 0, 0, 0, 0, 0x45 - start - n] :=
  valid_of_build (build_memGet start n)

section
variable {s : State}

/-- A valid request form starts its exchange. -/
theorem receiveOrIssue_valid {F : Bytes} (start : State → State) (hk : s.inflight = none) (hF : ValidFrame F) :
    receiveOrIssue F start s = start s := by
  rw [receiveOrIssue_idle F start hk, rxcheck_of_valid hF, State.orFinish_ok]

theorem exec_statusReq_issued (hk : s.inflight = none) : exec .statusReq s = .next (s.send statusRequest .isOn) :=
  congrArg _ ((receiveOrIssue_valid startIsOn hk (by decide)).trans (startIsOn_eq s))

theorem exec_powerReq_issued (hk : s.inflight = none) : exec .powerReq s
    = .next (s.send [0x08, 0x04, 0, 0, 0, 0, 0, 0, 0, 0, 0, 0, 0, 0, 0, 0, 0x49] .getPower) :=
  congrArg _ ((receiveOrIssue_valid startGetPower hk (by decide)).trans (startGetPower_eq s))

theorem exec_restore_issued (hk : s.inflight = none) : exec .restore s
    = .next (s.send [0x08, 0x09, 0, 0, 0, 0, 0, 0, 0, 0, 0, 0, 0, 0, 0, 0, 0x44] .restore) :=
  congrArg _ ((receiveOrIssue_valid startRestore hk (by decide)).trans (startRestore_eq s))

theorem exec_activeProfileGetReq_issued (hk : s.inflight = none) : exec .activeProfileGetReq s
    = .next (s.send [0x08, 0x0e, 0, 0, 0, 0, 0, 0, 0, 0, 0, 0, 0, 0, 0, 0, 0x3f] .getProfile) :=
  congrArg _ ((receiveOrIssue_valid requestProfile hk (by decide)).trans (requestProfile_eq s))

theorem exec_activeProfileSet_issued (hk : s.inflight = none) (p : Byte) : exec (.activeProfileSet p (0x3d - p)) s
    = .next (s.send [0x08, 0x0f, 0, 0, 0, 0x01, p, 0, 0, 0, 0, 0, 0, 0, 0, 0, 0x3d - p] (.setProfile p)) :=
  congrArg _ ((receiveOrIssue_valid (startSetProfile p) hk (validFrame_setActiveProfile p)).trans (startSetProfile_eq s p))

theorem exec_memGetReq_valid (hk : s.inflight = none) (start n : Byte) :
    exec (.memGetReq start n (0x45 - start - n)) s = .next (startMemRead start n.toNat s) :=
  congrArg _ (receiveOrIssue_valid (startMemRead start n.toNat) hk (validFrame_memGet start n))

theorem exec_memGetReq_issued (hk : s.inflight = none) {start n : Byte} (hlo : 1 ≤ n.toNat) (hhi : n.toNat ≤ 10)
    (hfits : start.toNat + n.toNat ≤ 256) : exec (.memGetReq start n (0x45 - start - n)) s
      = .next (s.send [0x08, 0x08, 0, 0, start, n, 0, 0, 0, 0, 0, 0, 0, 0, 0, 0, 0x45 - start - n]
        (.memRead start n.toNat)) := by
  rw [exec_memGetReq_valid hk, startMemRead_eq s hlo hhi hfits]

theorem exec_memSetReq_valid (hk : s.inflight = none) {start length : Byte} {d : Bytes} {k : Byte}
    (hF : ValidFrame ([0x08, 0x07, 0, 0, start, length] ++ d ++ [k])) :
    exec (.memSetReq start length d k) s = .next (issueMemSet start length d s) :=
  congrArg _ (receiveOrIssue_valid (issueMemSet start length d) hk hF)

end

/-- Settles O42: each form is one write (`exec_statusReq_issued` and the like), which the transport accepts. -/
theorem requestFormsAreSent : Obligations.RequestFormsAreSent := by
  intro s hk hacc
  have hsend (F : Bytes) (k : HostSeq) : s.send F k = afterSend s F k := State.send_accepted s F k hacc
  simp only [← hsend]
  exact ⟨exec_statusReq_issued hk, exec_powerReq_issued hk, exec_restore_issued hk, exec_activeProfileGetReq_issued hk,
    exec_activeProfileSet_issued hk, fun _ _ => exec_memGetReq_issued hk⟩

/-- Settles O43: the three cases of the window that `issueMemSet` makes. -/
theorem memSetAsksStatusFirst : Obligations.MemSetAsksStatusFirst := by
  intro start length d k s hk hd hF
  rw [exec_memSetReq_valid hk hF]
  refine ⟨fun hlo hhi hfits hacc => ?_, fun hbad => ?_, fun hlo hhi hover => ?_⟩
  · have hlen : (d.take length.toNat).length = length.toNat := by
      rw [List.length_take]
      omega
    refine ⟨windowMap start (d.take length.toNat), (length_windowMap _ _).trans hlen, fun j hj => ?_, ?_⟩
    · have hmem := mem_windowMap (start := start) (hj.trans_eq hlen.symm)
      rwa [List.getD_eq_getElem?_getD, List.getElem?_take, if_pos hj, ← List.getD_eq_getElem?_getD] at hmem
    · rw [issueMemSet_of_window s hlo hhi hfits hd, State.send_accepted s _ _ hacc]
  · rw [issueMemSet_badLength s hbad, State.finish_idle hk]
  · rw [issueMemSet_overflow s hhi hover hd, State.finish_idle hk]

/-! ## A request form that is not sent -/

/-- A failed write records no frame and ends the sequence with the transport's error (log 10). -/
theorem send_fails_idle {s : State} {info : Bytes} {r : List WriteAnswer} (hk : s.inflight = none)
    (hw : s.writes = .fails info :: r) (F : Bytes) (k : HostSeq) :
    s.send F k = { s with writes := r, results := s.results ++ [.error (.transportError info)] } := by
  rw [State.send_fails s F k info r hw]
  exact State.finish_idle (s := { s with writes := r }) hk _

theorem rxcheck_of_badSum {F : Bytes} (hlen : F.length = 17) (hsum : (F.map BitVec.toNat).sum % 256 ≠ 0x55) :
    rxcheck F = .error .checksumMismatch := by
  rw [rxcheck_eq, validationError, if_neg (not_not.mpr hlen), if_pos hsum]

/-- A request form with a wrong checksum byte starts nothing (log 7). -/
theorem receiveOrIssue_badSum {s : State} {c : Byte} {p : Bytes} {k : Byte} (start : State → State)
    (hk : s.inflight = none) (hp : p.length = 14)
    (hsum : ((frameBytes c p k).map BitVec.toNat).sum % 256 ≠ 0x55) :
    (.next (receiveOrIssue (frameBytes c p k) start s) : Outcome)
      = .next { s with results := s.results ++ [.error .checksumMismatch] } := by
  rw [receiveOrIssue_idle _ start hk, rxcheck_of_badSum (by rw [length_frameBytes, hp]) hsum, State.orFinish_error,
    State.finish_idle hk]

/-- Settles O44: each form is one write, which fails; a wrong checksum byte is found before; a bad window by the builder. -/
theorem requestsNotSent : Obligations.RequestsNotSent := by
  refine ⟨fun info r s hk hw i hi => ?failed, fun i F s hk hwf hi henc hsum => ?badSum,
    fun a n s hk => ⟨fun hbad => ?badLength, fun hlo hhi hover => ?overflow⟩⟩
  case failed =>
    have hsend (F : Bytes) (k : HostSeq) := send_fails_idle hk hw F k
    rcases hi with rfl | rfl | rfl | rfl | ⟨p, rfl⟩ | ⟨a, n, hlo, hhi, hfits, rfl⟩ | ⟨a, n, d, k, hlo, hhi, hfits, hd, hF, rfl⟩
    · rw [exec_statusReq_issued hk, hsend]
    · rw [exec_powerReq_issued hk, hsend]
    · rw [exec_restore_issued hk, hsend]
    · rw [exec_activeProfileGetReq_issued hk, hsend]
    · rw [exec_activeProfileSet_issued hk, hsend]
    · rw [exec_memGetReq_issued hk hlo hhi hfits, hsend]
    · rw [exec_memSetReq_valid hk hF, issueMemSet_of_window s hlo hhi hfits hd, hsend]
  case badSum =>
    rcases hi with ⟨a, n, d, k, rfl⟩ | ⟨a, n, k, rfl⟩ | ⟨p, k, rfl⟩ <;> cases henc
    · exact receiveOrIssue_badSum _ hk (length_memSetParams a n d (beq_iff_eq.mp hwf)) hsum
    · exact receiveOrIssue_badSum _ hk (length_memGetParams a n) hsum
    · exact receiveOrIssue_badSum _ hk rfl hsum
  case badLength =>
    rw [exec_memGetReq_valid hk, startMemRead, memgetBuild_badLength a hbad, State.orFinish_refused, State.finish_idle hk]
  case overflow =>
    rw [exec_memGetReq_valid hk, startMemRead, memgetBuild_overflow hlo hhi hover, State.orFinish_refused,
      State.finish_idle hk]

end Sys2Proof.Machine
end

section
/-! What `read()` returns to a sequence (46_host_sequences): one equation per sequence and kind of byte string, and the
statements about frames that are received. -/

namespace Sys2Proof.Machine

/-! ## One turn of `await_cmd` (R156, R158) -/

section
variable {b : Bytes} (s : State)

theorem rxcheck_of_invalid {e : Err} (h : validationError b = some e) : rxcheck b = .error e := by
  rw [rxcheck_eq, h]

theorem awaitCmd_of_invalid {e : Err} (h : validationError b = some e) (c : Byte) (go : Bytes → State) :
    awaitCmd c b s go = s.finish (.error e) := by
  rw [awaitCmd, rxcheck_of_invalid h, State.orFinish_error]

theorem awaitCmd_of_reply {c : Byte} (hb : ValidFrame b) (hc : b.getD 1 0 = c) (go : Bytes → State) :
    awaitCmd c b s go = go b := by
  rw [awaitCmd, rxcheck_of_valid hb, State.orFinish_ok]
  exact if_pos hc

theorem awaitCmd_of_other {c : Byte} (hb : ValidFrame b) (hc : b.getD 1 0 ≠ c) (go : Bytes → State) :
    awaitCmd c b s go = s := by
  rw [awaitCmd, rxcheck_of_valid hb, State.orFinish_ok]
  exact if_neg hc

/-- R156: in every sequence an invalid byte string ends it with the error of the first failed test. -/
theorem receive_of_invalid {e : Err} (h : validationError b = some e) (k : HostSeq) :
    receive k b s = s.finish (.error e) := by
  cases k with
  | isOn | getPower | memRead | scan | memSetStatus | memSetAck => exact awaitCmd_of_invalid s h _ _
  | getProfile | setProfile => rw [receive, parse_of_invalid h, State.orFinish_error]
  | restore => rw [receive, rxcheck_of_invalid h, State.orFinish_error]

end

/-- Settles O46: `receive_of_invalid`, and the two places of a `TransportError`. -/
theorem badReadEndsSequence : Obligations.BadReadEndsSequence := by
  refine ⟨fun s t b e hread he => ?_, fun s info q hk hp hq => step_queuedFailure hk hp hq,
    fun s info r hk hq hp => step_readFails hk hq hp⟩
  obtain ⟨k, hk⟩ := Option.isSome_iff_exists.mp hread.1
  rw [step_of_reads hread hk, receive_of_invalid t he]
  rfl

/-- Settles O47: the six sequences that await a command (`awaitCmd_of_other`). -/
theorem otherCommandsAreDiscarded : Obligations.OtherCommandsAreDiscarded := by
  intro s t b k c hread hk hb hawait hc
  have hvalid := validationError_eq_none.mp hb
  rw [step_of_reads hread hk]
  cases k with
  | isOn | getPower | memRead | scan | memSetStatus | memSetAck =>
    subst hawait
    exact congrArg _ (awaitCmd_of_other t hvalid hc _)
  | getProfile | setProfile | restore => exact hawait.elim

/-! ## The replies of the queries (R160, R161, R163) -/

section
variable {b : Bytes} (s : State)

theorem receive_isOn (hb : ValidFrame b) (hc : b.getD 1 0 = 0x03) :
    receive .isOn b s = s.finish (.ok (.flag (decide (b.getD 6 0 ≠ 0)))) := by
  rw [receive, awaitCmd_of_reply (c := cmdStatus) s hb hc, statusDec_of_valid hb hc, Res.map_ok, isTrue_eq_decide]

theorem receive_getPower (hb : ValidFrame b) (hc : b.getD 1 0 = 0x04) :
    receive .getPower b s = s.finish (.ok (.payload (.powerDetails (b.getD 6 0) (decide (b.getD 7 0 ≠ 0))
      (BitVec.ofNat 16 ((b.getD 8 0).toNat * 256 + (b.getD 9 0).toNat))))) := by
  have hraw : rawFrame cmdPower b = .ok b :=
    (rawFrame_of_valid (validationError_eq_none.mpr hb) _).trans (if_neg (not_not.mpr hc))
  rw [receive, awaitCmd_of_reply (c := cmdPower) s hb hc, powerDec, hraw, Res.map_ok, Res.map_ok, powerDetailsOf_eq]
  rfl

/-- `MEMGET_DEC` of a MEM_GET frame against a window: only the echo is left to test (R110). -/
theorem memgetDec_of_window (hb : ValidFrame b) (hc : b.getD 1 0 = 0x08) {start : Byte} {length : Nat}
    (hlo : 1 ≤ length) (hhi : length ≤ 10) (hfits : start.toNat + length ≤ 256) : memgetDec b start length =
      if b.getD 4 0 = start ∧ (b.getD 5 0).toNat = length then .ok (dataOf b length) else .error .protocolMismatch := by
  rw [memgetDec_of_valid hb, if_neg (by omega), if_neg hfits.not_gt, if_neg (not_not.mpr hc)]
  simp only [← ite_not (b.getD 4 0 = start ∧ _), not_and_or, ne_eq]

theorem receive_memRead (hb : ValidFrame b) (hc : b.getD 1 0 = 0x08) {start : Byte} {length : Nat}
    (hlo : 1 ≤ length) (hhi : length ≤ 10) (hfits : start.toNat + length ≤ 256) : receive (.memRead start length) b s
      = s.finish (if b.getD 4 0 = start ∧ (b.getD 5 0).toNat = length then .ok (.bytes (dataOf b length))
        else .error .protocolMismatch) := by
  rw [receive, awaitCmd_of_reply (c := cmdMemGet) s hb hc, memgetDec_of_window hb hc hlo hhi hfits,
    apply_ite (Res.map _), Res.map_ok, Res.map_error]

end

/-- In flight, a frame form is received. -/
theorem exec_received {i : Instr} {F : Bytes} {s : State} {k : HostSeq} (hk : s.inflight = some k)
    (hi : encode s.cfg.val.capP3 i = .wire F) : exec i s = .next (receive k F s) :=
  exec_wire_inflight i F s k hi hk

/-- The bytes of a frame from `F[2]` on are its parameters. -/
theorem getD_frame {c : Byte} {p : Bytes} {k : Byte} (hp : p.length = 14) {i : Nat} (hi : i < 14) :
    ([0x08, c] ++ p ++ [k]).getD (i + 2) 0 = p.getD i 0 := getD_frameBytes c k (hp ▸ hi)

theorem dataOf_frame (c : Byte) {p : Bytes} (k : Byte) (hp : p.length = 14) {n : Nat} (hn : n ≤ 10) :
    dataOf ([0x08, c] ++ p ++ [k]) n = (p.drop 4).take n := by
  rw [← data_frameBytes c k hp, List.take_take, Nat.min_eq_left hn]
  rfl

theorem dataOf_memGetReq (a n k : Byte) {length : Nat} (h : length ≤ 10) :
    dataOf (frameBytes cmdMemGet (memGetParams a n) k) length = List.replicate length 0 := by
  have hdata : dataOf (frameBytes cmdMemGet (memGetParams a n) k) length = (List.replicate 10 0).take length :=
    dataOf_frame cmdMemGet k (length_memGetParams a n) h
  rw [hdata, List.take_replicate, Nat.min_eq_left h]

/-- Settles O48: the equation of each query, on a response form and on the request form of the same command. -/
theorem awaitedReplyEndsQuery : Obligations.AwaitedReplyEndsQuery := by
  refine ⟨fun p k s hk => ⟨fun hp hF => ?isOn, ?isOnEcho⟩, fun p k s hk => ⟨fun hp hF => ?power, ?powerEcho⟩,
    fun p k start length s hk hlo hhi hfits => ⟨fun hp hF => ?memRead, fun a n => ?memReadZero⟩⟩
  case isOn =>
    rw [exec_received hk rfl, ← getD_frame hp (c := 0x03) (k := k) (by decide)]
    exact congrArg _ (receive_isOn s hF rfl)
  case isOnEcho =>
    rw [exec_received hk rfl]
    exact congrArg _ (receive_isOn (b := statusRequest) s (by decide) rfl)
  case power =>
    have hbyte (i : Nat) (hi : i < 14) := getD_frame hp (c := 0x04) (k := k) hi
    rw [exec_received hk rfl, ← hbyte 4 (by decide), ← hbyte 5 (by decide), ← hbyte 6 (by decide), ← hbyte 7 (by decide)]
    exact congrArg _ (receive_getPower s hF rfl)
  case powerEcho =>
    rw [exec_received hk rfl]
    exact congrArg _ (receive_getPower s
      (b := [0x08, 0x04, 0, 0, 0, 0, 0, 0, 0, 0, 0, 0, 0, 0, 0, 0, 0x49]) (by decide) rfl)
  case memRead =>
    have hbyte (i : Nat) (hi : i < 14) := getD_frame hp (c := 0x08) (k := k) hi
    rw [exec_received hk rfl, ← hbyte 2 (by decide), ← hbyte 3 (by decide), ← dataOf_frame 0x08 k hp hhi]
    exact congrArg _ (receive_memRead s hF rfl hlo hhi hfits)
  case memReadZero =>
    rw [exec_received hk rfl, ← dataOf_memGetReq a n (0x45 - a - n) hhi]
    exact congrArg _ (receive_memRead s (validFrame_memGet a n) rfl hlo hhi hfits)

/-! ## The replies of `_mem_set` (R165) -/

section
variable {b : Bytes} {w : ByteMap} (s : State)

theorem receive_memSetStatus (hb : ValidFrame b) (hc : b.getD 1 0 = 0x03) :
    receive (.memSetStatus w) b s = writeIfOn w (isTrue (b.getD 6 0)) s := by
  rw [receive, awaitCmd_of_reply (c := cmdStatus) s hb hc, statusDec_of_valid hb hc, State.orFinish_ok]

theorem receive_memSetStatus_off (hb : ValidFrame b) (hc : b.getD 1 0 = 0x03) (hoff : b.getD 6 0 = 0) :
    receive (.memSetStatus w) b s = s.finish (.error .deviceOff) := by
  rw [receive_memSetStatus s hb hc, hoff]
  rfl

theorem receive_memSetStatus_on {F : Bytes} (hb : ValidFrame b) (hc : b.getD 1 0 = 0x03) (hon : b.getD 6 0 ≠ 0)
    (hF : memsetBuild w = .ok F) : receive (.memSetStatus w) b s = s.send F (.memSetAck w) := by
  rw [receive_memSetStatus s hb hc, isTrue_eq_true.mpr hon, writeIfOn, if_pos rfl, hF, State.orFinish_ok]

/-- A block has a MEM_SET request (R95). -/
theorem memsetBuild_of_span {lo n : Nat} (h : SpanOf w lo n) : ∃ F, memsetBuild w = .ok F := by
  rw [memsetBuild, spanCheck_of_span h, Res.bind_ok]
  obtain ⟨_, _, hmax, _⟩ := h
  exact ⟨_, build_known 0x07 _ rfl (memsetAssignment_index_le w _ hmax)⟩

theorem receive_memSetAck {lo n : Nat} (h : SpanOf w lo n) (hb : ValidFrame b) (hc : b.getD 1 0 = 0x07) :
    receive (.memSetAck w) b s
      = { s with mirror := mirrorMerge s.mirror (mapCells w), inflight := none, results := s.results ++ [.ok .unit] } := by
  have hack : memsetAck b = .ok () := by
    have hraw : rawFrame cmdMemSet b = .ok b :=
      (rawFrame_of_valid (validationError_eq_none.mpr hb) _).trans (if_neg (not_not.mpr hc))
    rw [memsetAck, hraw, Res.map_ok]
  rw [receive, awaitCmd_of_reply (c := cmdMemSet) s hb hc, hack, State.orFinish_ok, mirWr_of_span s.mirror h,
    State.orFinish_ok]
  rfl

end

/-- Settles O49: the three equations of `_mem_set`, and what a merge of a map with distinct keys reads as. -/
theorem memSetRepliesInTurn : Obligations.MemSetRepliesInTurn := by
  intro p k w lo n s hw hspan hp
  have hbyte := getD_frame hp (c := 0x03) (k := k) (i := 4) (by decide)
  refine ⟨fun hk hF hoff => ?off, fun hk hF hon hacc => ?on, fun hk hF => ?ack⟩
  case off =>
    rw [exec_received hk rfl]
    exact congrArg _ (receive_memSetStatus_off s hF rfl (hbyte.trans hoff))
  case on =>
    obtain ⟨F, hbuild⟩ := memsetBuild_of_span hspan
    refine ⟨F, ?_, by rw [exec_memsetBuild, hbuild, Res.map_ok]⟩
    rw [exec_received hk rfl]
    exact congrArg _ ((receive_memSetStatus_on s hF rfl (hbyte.trans_ne hon) hbuild).trans (State.send_accepted s F _ hacc))
  case ack =>
    refine ⟨mirrorMerge s.mirror (mapCells w), ?_, fun a v hav => mirrorGet_merge_map_of_mem s.mirror hw hav,
      fun a ha => mirrorGet_merge_map_of_not_key s.mirror ha⟩
    rw [exec_received hk rfl]
    exact congrArg _ (receive_memSetAck s hspan hF rfl)

/-! ## The profile sequences (R159, R167, R168) -/

section
variable {b : Bytes} (s : State)

theorem receive_getProfile_reply {p : Byte} (h : parse s.cfg.val b = .ok (.currentActiveProfile p)) :
    receive .getProfile b s = (s.cacheProfile p).finish (.ok (.byte p)) := by
  rw [receive, h, State.orFinish_ok]

theorem receive_getProfile_other {v : Payload} (h : parse s.cfg.val b = .ok v)
    (hv : ∀ p, v ≠ .currentActiveProfile p) : receive .getProfile b s = s := by
  rw [receive, h, State.orFinish_ok]
  split
  · exact absurd rfl (hv _)
  · rfl

theorem receive_getProfile_error {e : Err} (h : parse s.cfg.val b = .error e) :
    receive .getProfile b s = s.finish (.error e) := by
  rw [receive, h, State.orFinish_error]

theorem receive_setProfile_echo {p q : Byte} (h : parse s.cfg.val b = .ok (.setActiveProfile q)) :
    receive (.setProfile p) b s
      = if q = p then (s.cacheProfile p).finish (.ok .unit) else s.finish (.error .unexpectedResponse) := by
  rw [receive, h, State.orFinish_ok]
  exact ite_not _ _ _

theorem receive_setProfile_other {p : Byte} {v : Payload} (h : parse s.cfg.val b = .ok v)
    (hv : ∀ q, v ≠ .setActiveProfile q) : receive (.setProfile p) b s = s := by
  rw [receive, h, State.orFinish_ok]
  split
  · exact absurd rfl (hv _)
  · rfl

theorem receive_setProfile_error {p : Byte} {e : Err} (h : parse s.cfg.val b = .error e) :
    receive (.setProfile p) b s = s.finish (.error e) := by
  rw [receive, h, State.orFinish_error]

end

theorem parse_currentActiveProfile (t : Config.WfTables) (p : Byte) :
    parse t.val [0x08, 0x0e, 0, 0, 0, t.val.capP3, p, 0, 0, 0, 0, 0, 0, 0, 0, 0, 0x3f - t.val.capP3 - p]
      = .ok (.currentActiveProfile p) := by
  obtain ⟨F, hF, hparse⟩ := parse_serialize_currentActiveProfile t p
  rw [serialize_currentActiveProfile] at hF
  cases hF
  exact hparse

theorem parse_setActiveProfile (t : Config.Tables) (p : Byte) :
    parse t [0x08, 0x0f, 0, 0, 0, 0x01, p, 0, 0, 0, 0, 0, 0, 0, 0, 0, 0x3d - p] = .ok (.setActiveProfile p) := by
  rw [parse_of_valid (validFrame_setActiveProfile p), parseFrame_profileSet t rfl]
  exact if_pos rfl

theorem parse_requestActiveProfile (t : Config.Tables) :
    parse t [0x08, 0x0e, 0, 0, 0, 0, 0, 0, 0, 0, 0, 0, 0, 0, 0, 0, 0x3f] = .ok .requestActiveProfile := by
  rw [parse_of_valid (by decide), parseFrame_profileGet t rfl, if_pos rfl]

/-- Settles O50: the cache decides the start; the reply is the canonical frame, and the bare request is another variant. -/
theorem profileGetterCaches : Obligations.ProfileGetterCaches := by
  refine ⟨fun s r hk hp => ⟨fun p hprof => ?cached, fun hprof hacc => ?asked⟩, fun p s hk => ⟨?reply, ?echo⟩⟩
  case cached =>
    rw [step_call hk hp, startCall, startGetProfile, profRd_of_some (s := { s with port := r }) hprof]
    exact congrArg _ (State.finish_idle (s := { s with port := r }) hk _)
  case asked =>
    rw [step_call hk hp, startCall, startGetProfile, profRd_of_none (s := { s with port := r }) hprof]
    simp only
    rw [requestProfile_eq, State.send_accepted { s with port := r } _ _ hacc]
  case reply =>
    rw [exec_received hk rfl]
    exact congrArg _ (receive_getProfile_reply s (parse_currentActiveProfile s.cfg p))
  case echo =>
    rw [exec_received hk rfl]
    exact congrArg _ (receive_getProfile_other s (parse_requestActiveProfile s.cfg.val) (by simp))

/-- Settles O51: the echo parses to the profile it carries. -/
theorem profileEchoUpdatesCache : Obligations.ProfileEchoUpdatesCache := by
  intro p q s hk
  rw [exec_received hk rfl]
  exact congrArg _ (receive_setProfile_echo s (parse_setActiveProfile s.cfg.val q))

theorem error_of_posted_payload {s : State} {r : Res Payload} {e : Err}
    (h : (.next { s with results := s.results ++ [r.map .payload] } : Outcome)
      = .next { s with results := s.results ++ [.error e] }) : r = .error e := by
  have hres := result_eq_of_next_eq h
  cases r <;> simp at hres
  rw [hres]

/-- Settles O52: what the block's `PARSE` answers on the byte string is what the loop acts on. -/
theorem variantLoopErrorsAreFatal : Obligations.VariantLoopErrorsAreFatal := by
  intro s t b k hread hk hprofile
  rw [step_of_reads hread hk]
  refine ⟨fun e hparse => ?_, fun v hparse hget hset => ?_⟩
  · rw [exec_parse] at hparse
    have herr := error_of_posted_payload hparse
    rcases hprofile with rfl | ⟨p, rfl⟩
    · exact congrArg _ (receive_getProfile_error t herr)
    · exact congrArg _ (receive_setProfile_error t herr)
  · rw [exec_parse] at hparse
    have hok := ok_of_posted_payload hparse
    rcases hprofile with rfl | ⟨p, rfl⟩
    · exact congrArg _ (receive_getProfile_other t hok (hget rfl))
    · exact congrArg _ (receive_setProfile_other t hok (hset p rfl))

/-! ## `restore` (R170) -/

section
variable {b : Bytes} (s : State)

theorem receive_restore (hb : ValidFrame b) : receive .restore b s =
    if b = [0x08, 0x09, 0, 0, 0, 0, 0, 0, 0, 0, 0, 0, 0, 0, 0, 0, 0x44] then
      { s with mirror := [], prof := none, inflight := none, results := s.results ++ [.ok .unit] }
    else s.finish (.error .unexpectedResponse) := by
  rw [receive, rxcheck_of_valid hb, State.orFinish_ok, serialize_restore]
  simp only [Res.ok.injEq, eq_comm]
  rfl

end

/-- Settles O53: the one test of `restore` on a valid frame. -/
theorem restoreNeedsExactEcho : Obligations.RestoreNeedsExactEcho := by
  refine ⟨fun s hk => ⟨[], ?_, mirrorGet_nil⟩, fun s t b hread hk hb hne => ?_⟩
  · rw [exec_received hk rfl]
    refine congrArg _ ((receive_restore s ?_).trans (if_pos rfl))
    decide
  · rw [step_of_reads hread hk, receive_restore t (validationError_eq_none.mp hb), if_neg hne]
    rfl

/-! ## A device event in flight (R183) -/

/-- The byte is one of the three kind bytes (R63). -/
abbrev KnownKind (t : Config.Tables) (k : Byte) : Prop := k = t.ekUnknown1 ∨ k = t.ekDpiMode ∨ k = t.ekPower

section
variable {b : Bytes} (t : Config.Tables)

/-- R102: an event of a known kind is one of three payloads. -/
theorem parse_knownEvent (hb : ValidFrame b) (hc : b.getD 1 0 = 0x0a) (hkind : KnownKind t (b.getD 6 0)) :
    ∃ e, parse t b = .ok (.deviceEvent e) := by
  rw [parse_of_valid hb, parseFrame_deviceEvent t hc]
  split_ifs with h1 h2 h3
  · exact ⟨_, rfl⟩
  · exact ⟨_, rfl⟩
  · exact ⟨_, rfl⟩
  · exact (hkind.elim h1 fun h => h.elim h2 h3).elim

theorem parse_unknownEvent (hb : ValidFrame b) (hc : b.getD 1 0 = 0x0a) (hkind : ¬ KnownKind t (b.getD 6 0)) :
    parse t b = .error .unknownDeviceEvent := by
  obtain ⟨h1, h2, h3⟩ : b.getD 6 0 ≠ t.ekUnknown1 ∧ b.getD 6 0 ≠ t.ekDpiMode ∧ b.getD 6 0 ≠ t.ekPower := by
    simpa only [not_or] using hkind
  rw [parse_of_valid hb, parseFrame_deviceEvent t hc]
  exact (if_neg h1).trans ((if_neg h2).trans (if_neg h3))

end

/-- Settles O54: command 0x0a is awaited nowhere; the profile sequences parse the event; `restore` takes its echo only. -/
theorem deviceEventInFlight : Obligations.DeviceEventInFlight := by
  intro p c k s hk hp hF
  have hkind := getD_frame hp (c := 0x0a) (k := c) (i := 4) (by decide)
  rw [exec_received hk rfl]
  refine congrArg _ ?_
  cases k with
  | isOn | getPower | memRead | scan | memSetStatus | memSetAck =>
    exact awaitCmd_of_other s hF (by simp [cmdStatus, cmdPower, cmdMemGet, cmdMemSet]) _
  | getProfile =>
    by_cases hknown : KnownKind s.cfg.val (p.getD 4 0)
    · obtain ⟨e, hok⟩ := parse_knownEvent s.cfg.val hF rfl (hkind ▸ hknown)
      exact (receive_getProfile_other s hok (by simp)).trans (if_pos hknown).symm
    · exact (receive_getProfile_error s (parse_unknownEvent s.cfg.val hF rfl (hkind ▸ hknown))).trans (if_neg hknown).symm
  | setProfile q =>
    by_cases hknown : KnownKind s.cfg.val (p.getD 4 0)
    · obtain ⟨e, hok⟩ := parse_knownEvent s.cfg.val hF rfl (hkind ▸ hknown)
      exact (receive_setProfile_other s hok (by simp)).trans (if_pos hknown).symm
    · exact (receive_setProfile_error s (parse_unknownEvent s.cfg.val hF rfl (hkind ▸ hknown))).trans (if_neg hknown).symm
  | restore => exact (receive_restore s hF).trans (if_neg (by simp))

end Sys2Proof.Machine
end

section
/-! Whole sequences (46_host_sequences): getters and their scan, setters, `_mem_set`, and `read_settings`. -/

namespace Sys2Proof.Machine

/-! ## The windows of a scan (R162) -/

/-- The MEM_GET request of a scan window. -/
abbrev scanRequest (a : Byte) : Bytes := [0x08, 0x08, 0, 0, a, 0x0a, 0, 0, 0, 0, 0, 0, 0, 0, 0, 0, 0x3b - a]

theorem memgetBuild_scan {a : Byte} (h : a.toNat + 10 ≤ 256) : memgetBuild a Config.scanStep = .ok (scanRequest a) := by
  have hbuild := memgetBuild_of_window (start := a) (n := 0x0a) (by decide) (by decide) h
  rwa [sub_right_comm] at hbuild

/-- The next window is asked for by one write. -/
theorem nextWindow_cons {a : Byte} (h : a.toNat + 10 ≤ 256) (rest : Bytes) (g : AfterScan) (s : State) :
    nextWindow (a :: rest) g s = s.send (scanRequest a) (.scan a rest g) := by
  rw [nextWindow, memgetBuild_scan h, State.orFinish_ok]

/-- A reply of the scan: a MEM_GET frame that echoes the start and the length of a window within the address space
(R110, R162). -/
structure EchoesWindow (a : Byte) (b : Bytes) : Prop where
  valid : ValidFrame b
  command : b.getD 1 0 = 0x08
  start : b.getD 4 0 = a
  length : b.getD 5 0 = 10
  fits : a.toNat + 10 ≤ 256

/-- The mirror after a window of the scan has been filled (R162 step 2). -/
def fillWindow (m : List Host.Cell) (a : Byte) (b : Bytes) : List Host.Cell :=
  mirrorMerge m (windowCells a.toNat (dataOf b 10))

theorem receive_scan {a : Byte} {b : Bytes} (h : EchoesWindow a b) (rest : Bytes) (g : AfterScan) (s : State) :
    receive (.scan a rest g) b s = nextWindow rest g { s with mirror := fillWindow s.mirror a b } := by
  obtain ⟨hb, hc, hstart, hlength, hfits⟩ := h
  have hdec : memgetDec b a Config.scanStep = .ok (dataOf b 10) := by
    rw [memgetDec_of_window hb hc (length := Config.scanStep) (by decide) (by decide) hfits,
      if_pos ⟨hstart, by rw [hlength]; rfl⟩]
    rfl
  have hdata : (dataOf b 10).length = 10 := length_dataOf hb.1 (by decide)
  have hfill : mirFill s.mirror a (dataOf b 10) = .ok (fillWindow s.mirror a b) := by
    rw [mirFill_eq, hdata, if_neg (by decide), if_neg hfits.not_gt]
    rfl
  rw [receive, awaitCmd_of_reply (c := cmdMemGet) s hb hc, hdec, State.orFinish_ok, hfill, State.orFinish_ok]

theorem mirrorGet_fillWindow_at (m : List Host.Cell) {a : Byte} {b : Bytes} (hb : ValidFrame b) {j : Nat} (hj : j < 10) :
    mirrorGet (fillWindow m a b) (a.toNat + j) = some (b.getD (6 + j) 0) := by
  rw [fillWindow, mirrorGet_merge_window_at m a.toNat (by rw [length_dataOf hb.1 (by decide)]; exact hj), getD_dataOf b hj]

theorem mirrorGet_fillWindow_outside (m : List Host.Cell) {a : Byte} {b : Bytes} (hb : ValidFrame b) {c : Nat}
    (hc : c < a.toNat ∨ a.toNat + 10 ≤ c) : mirrorGet (fillWindow m a b) c = mirrorGet m c := by
  rw [fillWindow, mirrorGet_merge_window, length_dataOf hb.1 (by decide), if_neg (by omega)]

/-! ## Getters (R164, R169, R173) -/

theorem readTriple_eq_ok {t : Config.Tables} {m : List Host.Cell} {mode : Byte} {g : Group} {v : Bytes}
    (h : readTriple t m mode g = .ok v) : ∃ b0 b1 b2, v = [b0, b1, b2] := by
  unfold readTriple at h
  split_ifs at h
  obtain ⟨b0, _, h⟩ := Res.bind_eq_ok.mp h
  obtain ⟨b1, _, h⟩ := Res.bind_eq_ok.mp h
  obtain ⟨b2, _, h⟩ := Res.bind_eq_ok.mp h
  obtain ⟨k, _, h⟩ := Res.bind_eq_ok.mp h
  split_ifs at h
  cases h
  exact ⟨b0, b1, b2, rfl⟩

/-- The read of a getter in the terms of the block's operations. -/
theorem getterReads_getterResult (s : State) (g : AfterScan) : GetterReads s g (getterResult s g) := by
  cases g with
  | nothing => rfl
  | getField f =>
    rw [GetterReads, exec_fieldRd_scalar, fieldNamed_fieldIndex, Res.bind_ok]
    rfl
  | getLed m => rfl
  | getDpi m =>
    refine ⟨_, exec_fieldRd_triple m .dpi s, fun hno => ?_, fun v hv => ?_⟩
    · rw [getterResult, readDpi]
      cases hraw : readTriple s.cfg.val s.mirror m .dpi with
      | ok raw => exact absurd (by rw [hraw, Res.map_ok]) (hno (.bytes raw))
      | error e => rfl
      | miss a => rfl
      | refused r => rfl
    · obtain ⟨raw, hraw, rfl⟩ := Res.map_eq_ok.mp hv
      obtain ⟨b0, b1, b2, rfl⟩ := readTriple_eq_ok hraw
      refine ⟨b0, b1, b2, rfl, ?_⟩
      rw [exec_dpiDec, getterResult, readDpi, hraw, Res.bind_ok]
      rfl

theorem startGetter_of_no_miss {s : State} {g : AfterScan} (h : ∀ a, getterResult s g ≠ .miss a) :
    startGetter g s = s.finish (getterResult s g) := by
  unfold startGetter
  split
  · exact absurd ‹_› (h _)
  · rfl

theorem startGetter_of_miss {s : State} {g : AfterScan} {a : MissAt} (h : getterResult s g = .miss a) :
    startGetter g s = startScan g s := by
  rw [startGetter, h]

theorem startCall_getter {c : HostCall} {g : AfterScan} (h : GetterOf c g) (s : State) :
    startCall c s = startGetter g s := by
  rcases h with ⟨f, rfl, rfl⟩ | ⟨m, rfl, rfl⟩ | ⟨m, rfl, rfl⟩ <;> rfl

/-- Settles O58: a getter is its read, and a scan on a miss; a reply of the scan is `receive_scan`. -/
theorem getterFillsOnMissOnly : Obligations.GetterFillsOnMissOnly := by
  refine ⟨fun s c g r hget hk hacc hp => ?start, fun s t b a rest g hread hk hb hc hstart hlength hfits => ?reply⟩
  case start =>
    have hstep : step s = .next (startGetter g { s with port := r }) := by
      rw [step_call hk hp, startCall_getter hget]
    refine ⟨getterResult s g, getterReads_getterResult s g, fun hhit => ?_, fun ⟨a, hmiss⟩ => ?_⟩
    · rw [hstep, startGetter_of_no_miss (s := { s with port := r }) hhit]
      exact congrArg _ (State.finish_idle (s := { s with port := r }) hk _)
    · rw [hstep, startGetter_of_miss (s := { s with port := r }) hmiss]
      exact congrArg _ ((nextWindow_cons (by decide) _ g _).trans (State.send_accepted { s with port := r } _ _ hacc))
  case reply =>
    obtain ⟨q, p, rfl⟩ := reads_shape hread
    have hstep := step_of_reads hread hk
    rw [receive_scan ⟨hb, hc, hstart, hlength, hfits⟩] at hstep
    refine ⟨fillWindow s.mirror a b, fun j hj => mirrorGet_fillWindow_at s.mirror hb hj,
      fun c hout => mirrorGet_fillWindow_outside s.mirror hb hout, fun a' rest' hrest hfits' hacc => ?_, fun hrest => ?_⟩
    · rw [hstep, hrest, nextWindow_cons hfits']
      exact congrArg _ (State.send_accepted _ _ _ hacc)
    · refine ⟨_, getterReads_getterResult _ g, ?_⟩
      rw [hstep, hrest]
      rfl

/-! ## Setters (R166, R169, R172) -/

theorem startMemSet_scalarPair (s : State) (f : ScalarField) (v : Byte) :
    startMemSet (scalarPair s.cfg.val f v) s = s.send statusRequest (.memSetStatus (scalarPair s.cfg.val f v)) := by
  obtain ⟨lo, hlo⟩ := scalarPair_perm s.cfg f v
  exact startMemSet_of_span s (spanOf_of_perm hlo (by decide) (by decide))

theorem startMemSet_groupPairs (s : State) {m : Byte} (g : Group) (b0 b1 b2 : Byte) (hm : m.toNat ≤ 3) :
    startMemSet (groupPairs s.cfg.val m g b0 b1 b2) s
      = s.send statusRequest (.memSetStatus (groupPairs s.cfg.val m g b0 b1 b2)) := by
  obtain ⟨lo, hlo⟩ := groupPairs_perm s.cfg g b0 b1 b2 hm
  exact startMemSet_of_span s (spanOf_of_perm hlo (by decide) (by decide))

/-- The write of a triple, once it has passed the setter's own checks: the mode, then the STATUS request (R169). -/
theorem setTriple_badMode (s : State) {m : Byte} (g : Group) (b0 b1 b2 : Byte) (hm : 3 < m.toNat) :
    (s.orFinish (triplePair s.cfg.val m g b0 b1 b2) fun w => startMemSet w s) = s.finish (.refused .badMode) := by
  rw [triplePair_badMode s.cfg.val g b0 b1 b2 hm, State.orFinish_refused]

theorem setTriple_of_mode (s : State) {m : Byte} (g : Group) (b0 b1 b2 : Byte) (hm : m.toNat ≤ 3) :
    (s.orFinish (triplePair s.cfg.val m g b0 b1 b2) fun w => startMemSet w s)
      = s.send statusRequest (.memSetStatus (groupPairs s.cfg.val m g b0 b1 b2)) := by
  rw [triplePair_of_mode s.cfg.val g b0 b1 b2 hm, State.orFinish_ok, startMemSet_groupPairs s g b0 b1 b2 hm]

theorem exec_fieldPair_of_mode (s : State) {m : Byte} (g : Group) (b0 b1 b2 : Byte) (hm : m.toNat ≤ 3) :
    exec (.fieldPair (.triple m g b0 b1 b2)) s
      = .next { s with results := s.results ++ [.ok (.map (groupPairs s.cfg.val m g b0 b1 b2))] } := by
  rw [exec_fieldPair_triple, triplePair_of_mode s.cfg.val g b0 b1 b2 hm, Res.map_ok]

section
variable {s : State} {r : List PortItem}

/-- A setter that fails a check of its own ends at once. -/
theorem step_call_finish {c : HostCall} {x : Result} (hk : s.inflight = none) (hp : s.port = .call c :: r)
    (h : startCall c { s with port := r } = ({ s with port := r } : State).finish x) :
    step s = .next { s with results := s.results ++ [x], port := r } := by
  rw [step_call hk hp, h, State.finish_idle (s := { s with port := r }) hk]

/-- A call that begins with a write which is accepted. -/
theorem step_call_send {c : HostCall} {F : Bytes} {k : HostSeq} (hk : s.inflight = none) (hacc : AcceptsWrite s)
    (hp : s.port = .call c :: r) (h : startCall c { s with port := r } = ({ s with port := r } : State).send F k) :
    step s = .next (afterSend { s with port := r } F k) := by
  rw [step_call hk hp, h, State.send_accepted { s with port := r } F k hacc]

theorem dpiEnc_eq_ok {d : BitVec 32} (hlo : 50 ≤ d.toNat) (hhi : d.toNat ≤ 26000) (hmul : d.toNat % 50 = 0) :
    ∃ raw0 raw1 raw2, dpiEnc d = .ok [raw0, raw1, raw2] := ⟨_, _, _, dpiEnc_of_valid hlo hhi hmul⟩

theorem legalValue_iff {t : Config.Tables} {f : ScalarField} {v : Byte} :
    legalValue t f v = true ↔ v ∈ t.setterDomain.getD (fieldIndex f) [] := List.contains_iff_mem

end

/-- Settles O59: each setter's own checks in their order, then the mode, then the write of the field pair. -/
theorem settersCheckBeforeFrames : Obligations.SettersCheckBeforeFrames := by
  refine ⟨fun s m d r hk hacc hp => ⟨fun hrange => ?range, fun hlo hhi hmul => ?multiple,
      fun hlo hhi hmul hm => ?dpiMode, fun hlo hhi hmul hm => ?setDpi⟩,
    fun s f v r hk hacc hp => ?setField,
    fun s m red green blue r hk hacc hp => ⟨fun hex => ?excluded, fun hin hm => ?ledMode, fun hin hm => ?setLed⟩⟩
  case range =>
    refine step_call_finish hk hp ?_
    rw [startCall, startSetDpi, dpiEnc_eq, if_pos hrange, State.orFinish_error]
  case multiple =>
    refine step_call_finish hk hp ?_
    rw [startCall, startSetDpi, dpiEnc_eq, if_neg (by omega), if_pos hmul, State.orFinish_error]
  case dpiMode =>
    refine step_call_finish hk hp ?_
    rw [startCall, startSetDpi, dpiEnc_of_valid hlo hhi hmul, State.orFinish_ok]
    exact setTriple_badMode _ .dpi _ _ _ hm
  case setDpi =>
    obtain ⟨raw0, raw1, raw2, henc⟩ := dpiEnc_eq_ok hlo hhi hmul
    refine ⟨raw0, raw1, raw2, _, ?_, exec_fieldPair_of_mode s .dpi _ _ _ hm, step_call_send hk hacc hp ?_⟩
    · rw [exec_dpiEnc, henc, Res.map_ok]
    · rw [startCall, startSetDpi, henc, State.orFinish_ok]
      exact setTriple_of_mode { s with port := r } .dpi _ _ _ hm
  case setField =>
    refine ⟨_, setterDomain_getElem? s.cfg (settable f), fun hillegal => step_call_finish hk hp ?_, fun hlegal =>
      ⟨scalarPair s.cfg.val (settable f) v, ?_, step_call_send hk hacc hp ?_⟩⟩
    · rw [startCall, startSetField]
      exact if_neg (mt legalValue_iff.mp hillegal)
    · rw [exec_fieldPair_scalar, fieldNamed_fieldIndex, Res.map_ok]
    · rw [startCall, startSetField, if_pos (legalValue_iff.mpr hlegal)]
      exact startMemSet_scalarPair { s with port := r } (settable f) v
  case excluded =>
    refine step_call_finish hk hp ?_
    rw [startCall, startSetLed]
    exact if_pos (List.contains_iff_mem.mpr hex)
  case ledMode =>
    refine step_call_finish hk hp ?_
    rw [startCall, startSetLed, if_neg (mt List.contains_iff_mem.mp hin)]
    exact setTriple_badMode _ .led _ _ _ hm
  case setLed =>
    refine ⟨_, exec_fieldPair_of_mode s .led _ _ _ hm, step_call_send hk hacc hp ?_⟩
    rw [startCall, startSetLed, if_neg (mt List.contains_iff_mem.mp hin)]
    exact setTriple_of_mode { s with port := r } .led _ _ _ hm

/-! ## Runs -/

theorem run_succ {s t : State} (h : step s = .next t) (n : Nat) :
    Host.Core.run Sys2Proof.core (n + 1) s = Host.Core.run Sys2Proof.core n t := by
  simp only [Host.Core.run, show Sys2Proof.core.step s = .next t from h]

theorem run_one {s t : State} (h : step s = .next t) : Host.Core.run Sys2Proof.core 1 s = .next t := run_succ h 0

/-- With `RXQ` empty, the byte string that arrives is what `read()` returns. -/
theorem step_arrives {s : State} {k : HostSeq} {b : Bytes} {r : List PortItem} (hk : s.inflight = some k)
    (hq : s.rxq = []) (hp : s.port = .arrives b :: r) : step s = .next (receive k b { s with port := r }) :=
  step_of_reads ⟨by rw [hk]; rfl, .inr ⟨hq, r, hp, rfl⟩⟩ hk

theorem acceptsWrite_of_nil {s : State} (hw : s.writes = []) : AcceptsWrite s := .inl (by rw [hw]; rfl)

/-! ## The `_mem_set` exchange (R165) -/

/-- Settles O57: the call, the STATUS reply, and in the third clause the MEM_SET reply, one step each. -/
theorem memSetExchange : Obligations.MemSetExchange := by
  intro s w st ack r hk hq hw hkeys
  have hacc := acceptsWrite_of_nil hw
  refine ⟨fun hno hp => step_call_finish hk hp (startMemSet_of_not_span _ hno), ?off, ?on⟩
  case off =>
    rintro ⟨lo, n, hspan⟩ hst hcst hoff hp
    have hstart := step_call_send hk hacc hp (startMemSet_of_span _ hspan)
    have hstatus := step_arrives (s := afterSend { s with port := .arrives st :: r } statusRequest (.memSetStatus w))
      rfl hq rfl
    rw [receive_memSetStatus_off _ hst hcst hoff] at hstatus
    rw [run_succ hstart, run_one hstatus]
    simp [State.finish, statusRequest, hk, hw]
  case on =>
    rintro ⟨lo, n, hspan⟩ hst hcst hon hack hcack hp
    obtain ⟨F, hF⟩ := memsetBuild_of_span hspan
    refine ⟨mirrorMerge s.mirror (mapCells w), F, ?_, by rw [exec_memsetBuild, hF, Res.map_ok],
      fun a v hav => mirrorGet_merge_map_of_mem s.mirror hkeys hav,
      fun a ha => mirrorGet_merge_map_of_not_key s.mirror ha⟩
    have hstart := step_call_send hk hacc hp (startMemSet_of_span _ hspan)
    have hstatus := step_arrives
      (s := afterSend { s with port := .arrives st :: .arrives ack :: r } statusRequest (.memSetStatus w)) rfl hq rfl
    rw [receive_memSetStatus_on _ hst hcst hon hF, State.send_accepted _ _ _ (acceptsWrite_of_nil (by simp [hw]))] at hstatus
    have hdone := step_arrives (s := afterSend (afterSend { s with port := .arrives ack :: r } statusRequest
      (.memSetStatus w)) F (.memSetAck w)) rfl hq rfl
    rw [receive_memSetAck _ hspan hack hcack] at hdone
    rw [run_succ hstart, run_succ hstatus, run_one hdone]
    simp [statusRequest, hk, hw]

/-! ## `read_settings` (R162) -/

/-- The mirror after the windows of a list have been filled, each from its reply. -/
def fillWindows (m : List Host.Cell) (replies : List (Byte × Bytes)) : List Host.Cell :=
  replies.foldl (fun m e => fillWindow m e.1 e.2) m

section
variable {s : State} {a : Byte} {b : Bytes} {r : List PortItem}

theorem step_scan_last (h : EchoesWindow a b) (hk : s.inflight = some (.scan a [] .nothing)) (hq : s.rxq = [])
    (hp : s.port = .arrives b :: r) : step s = .next { s with
      mirror := fillWindow s.mirror a b
      inflight := none
      results := s.results ++ [.ok .unit]
      port := r } := by
  rw [step_arrives hk hq hp, receive_scan h]
  rfl

theorem step_scan_next {a' : Byte} {rest : Bytes} {g : AfterScan} (h : EchoesWindow a b) (h' : a'.toNat + 10 ≤ 256)
    (hk : s.inflight = some (.scan a (a' :: rest) g)) (hq : s.rxq = []) (hacc : AcceptsWrite s)
    (hp : s.port = .arrives b :: r) : step s
      = .next (afterSend { s with mirror := fillWindow s.mirror a b, port := r } (scanRequest a') (.scan a' rest g)) := by
  rw [step_arrives hk hq hp, receive_scan h, nextWindow_cons h']
  exact congrArg _ (State.send_accepted _ _ _ hacc)

end

/-- A scan with its replies to come: each reply fills its window and asks for the next, the last one ends the scan. -/
theorem run_scan (replies : List (Byte × Bytes)) (u : State) (a : Byte) (b : Bytes) (r : List PortItem)
    (ha : EchoesWindow a b) (hreplies : ∀ e ∈ replies, EchoesWindow e.1 e.2)
    (hk : u.inflight = some (.scan a (replies.map Prod.fst) .nothing)) (hq : u.rxq = []) (hw : u.writes = [])
    (hp : u.port = .arrives b :: (replies.map fun e => .arrives e.2) ++ r) :
    Host.Core.run Sys2Proof.core (replies.length + 1) u = .next { u with
      mirror := fillWindows u.mirror ((a, b) :: replies)
      inflight := none
      tx := u.tx ++ replies.map fun e => scanRequest e.1
      results := u.results ++ [.ok .unit]
      port := r } := by
  induction replies generalizing u a b with
  | nil =>
    rw [List.length_nil, run_one (step_scan_last ha hk hq hp)]
    simp [fillWindows]
  | cons e replies ih =>
    obtain ⟨a', b'⟩ := e
    have ha' : EchoesWindow a' b' := hreplies (a', b') List.mem_cons_self
    have hstep := step_scan_next (r := .arrives b' :: (replies.map fun e => PortItem.arrives e.2) ++ r) ha ha'.fits hk
      hq (acceptsWrite_of_nil hw) hp
    have hrest := ih (a := a') (b := b') (u := afterSend { u with
      mirror := fillWindow u.mirror a b, port := .arrives b' :: (replies.map fun e => PortItem.arrives e.2) ++ r }
      (scanRequest a') (.scan a' (replies.map Prod.fst) .nothing))
      ha' (fun e he => hreplies e (List.mem_cons_of_mem _ he)) rfl hq (by simp [hw]) rfl
    rw [List.length_cons, run_succ hstep]
    refine hrest.trans ?_
    simp [fillWindows, hw]

/-- The windows of `read_settings` and the replies to them: the starts are the first twenty multiples of ten (R162). -/
def scanReplies (reply : Nat → Bytes) (n : Nat) : List (Byte × Bytes) :=
  (List.range n).map fun k => (BitVec.ofNat 8 (10 * k), reply k)

theorem mem_scanReplies {reply : Nat → Bytes} {n : Nat} {e : Byte × Bytes} (h : e ∈ scanReplies reply n) :
    ∃ k < n, e = (BitVec.ofNat 8 (10 * k), reply k) := by
  obtain ⟨k, hk, rfl⟩ := List.mem_map.mp h
  exact ⟨k, List.mem_range.mp hk, rfl⟩

theorem fillWindows_succ (m : List Host.Cell) (reply : Nat → Bytes) (n : Nat) :
    fillWindows m (scanReplies reply (n + 1))
      = fillWindow (fillWindows m (scanReplies reply n)) (BitVec.ofNat 8 (10 * n)) (reply n) := by
  simp [fillWindows, scanReplies, List.range_succ]

theorem toNat_scanStart {k : Nat} (hk : k < 20) : (BitVec.ofNat 8 (10 * k)).toNat = 10 * k :=
  Nat.mod_eq_of_lt (by omega)

/-- What the mirror reads as when the first `n` windows have been filled. -/
theorem mirrorGet_fillWindows (m : List Host.Cell) (reply : Nat → Bytes) {n : Nat} (hn : n ≤ 20)
    (hvalid : ∀ k < n, ValidFrame (reply k)) (a : Nat) : mirrorGet (fillWindows m (scanReplies reply n)) a
      = if a < 10 * n then some ((reply (a / 10)).getD (6 + a % 10) 0) else mirrorGet m a := by
  induction n with
  | zero => rfl
  | succ n ih =>
    have hstart := toNat_scanStart (show n < 20 by omega)
    have hlast := hvalid n (Nat.lt_succ_self n)
    rw [fillWindows_succ]
    by_cases hin : 10 * n ≤ a ∧ a < 10 * n + 10
    · have hat := mirrorGet_fillWindow_at (fillWindows m (scanReplies reply n)) (a := BitVec.ofNat 8 (10 * n)) hlast
        (show a % 10 < 10 by omega)
      rw [hstart, show 10 * n + a % 10 = a by omega] at hat
      rw [hat, if_pos (by omega), show a / 10 = n by omega]
    · rw [mirrorGet_fillWindow_outside _ hlast (by omega), ih (by omega) fun k hk => hvalid k (by omega)]
      by_cases hlt : a < 10 * n
      · rw [if_pos hlt, if_pos (by omega)]
      · rw [if_neg hlt, if_neg (by omega)]

/-- `run_scan` from the first window on, its replies given as one list. -/
theorem run_scanReplies (reply : Nat → Bytes) (u : State) (r : List PortItem)
    (hecho : ∀ e ∈ scanReplies reply 20, EchoesWindow e.1 e.2)
    (hk : u.inflight = some (.scan 0 (Config.scanStarts.tail) .nothing)) (hq : u.rxq = []) (hw : u.writes = [])
    (hp : u.port = ((scanReplies reply 20).map fun e => .arrives e.2) ++ r) :
    Host.Core.run Sys2Proof.core 20 u = .next { u with
      mirror := fillWindows u.mirror (scanReplies reply 20)
      inflight := none
      tx := u.tx ++ (scanReplies reply 20).tail.map fun e => scanRequest e.1
      results := u.results ++ [.ok .unit]
      port := r } :=
  run_scan (scanReplies reply 20).tail u 0 (reply 0) r (hecho _ List.mem_cons_self)
    (fun e he => hecho e (List.mem_cons_of_mem _ he)) hk hq hw hp

/-- Settles O56: the call asks for the first window, and `run_scanReplies` does the rest. -/
theorem readSettingsFillsMirror : Obligations.ReadSettingsFillsMirror := by
  intro s reply r hk hq hw hp hreply
  have hecho : ∀ e ∈ scanReplies reply 20, EchoesWindow e.1 e.2 := by
    intro e he
    obtain ⟨k, hk, rfl⟩ := mem_scanReplies he
    obtain ⟨hb, hc, hstart, hlength⟩ := hreply k hk
    have haddr := toNat_scanStart hk
    exact ⟨hb, hc, BitVec.eq_of_toNat_eq (hstart.trans haddr.symm), hlength, by simp only [haddr]; omega⟩
  have hcall := step_call_send hk (acceptsWrite_of_nil hw) hp (nextWindow_cons (a := 0) (by decide) _ .nothing _)
  have hread (a : Nat) := mirrorGet_fillWindows s.mirror reply (n := 20) (le_refl _) (fun k hk => (hreply k hk).1) a
  refine ⟨fillWindows s.mirror (scanReplies reply 20), ?_, fun a ha => ?_, fun a ha => ?_⟩
  · have hscan := run_scanReplies reply (u := afterSend
      { s with port := ((scanReplies reply 20).map fun e => .arrives e.2) ++ r } (scanRequest 0)
      (.scan 0 Config.scanStarts.tail .nothing)) r hecho rfl hq (by simp [hw]) rfl
    rw [run_succ hcall]
    refine hscan.trans ?_
    simp only [hk, hw, List.tail_nil, List.append_assoc]
    rfl
  · rw [hread a, if_pos ha]
  · rw [hread a, if_neg ha.not_gt]

end Sys2Proof.Machine
end
